-- ==== Sys2Proof/Word.lean ====
section
/-! DEFINITION. The word types of the FC-310's ports and audio links, and the names of its ports and hire slots. -/

namespace Sys2Proof

/-- A byte on an SPI port (R174, R185). -/
abbrev Byte := BitVec 8

/-- A two-byte field of a frame (R185). -/
abbrev Half := BitVec 16

/-- A four-byte field of a frame: an amount, a sequence number, a 32-bit mask (R182, R185). -/
abbrev Word := BitVec 32

/-- A 16-bit two's-complement audio sample (00_scope, Conventions, Audio). -/
abbrev Sample := BitVec 16

/-- The three SPI slave ports (00_scope). -/
inductive PortId where
  | console
  | payment
  | fleet
  deriving DecidableEq, Repr

/-- The three slots of the hire table (R1). -/
inductive SlotId where
  | a
  | b
  | c
  deriving DecidableEq, Repr

end Sys2Proof
end

