-- ==== Sys2Proof/Syntax.lean ====
section
/-! DEFINITION. The commands of the FC-310: one constructor of `Instr` for each row of spec/opcode_table.json.
A request row is a whole request frame, its check word sound, taken at one port (R175); a transfer row is one selection of a port
(R174); the other rows are the events the part takes from its lines, its links, its timers and its store. -/

namespace Sys2Proof

/-- The five roof-sign lamps (R132). -/
structure LampBits where
  vacant  : Bool
  hired   : Bool
  offDuty : Bool
  share   : Bool
  alarm   : Bool
  deriving DecidableEq, Repr

/-- The levels the input lines read at a 100 Hz tick or at start-up (00_scope, "dedicated lines").
`true` is pressed, active, night, or a sense line that is high. -/
structure Lines where
  /-- the hidden alarm button line, pressed (R166) -/
  alarm : Bool
  /-- the driver push-to-talk line, pressed (R156) -/
  talk  : Bool
  /-- the passenger call line, pressed (R159) -/
  call  : Bool
  /-- the ambient line reads night (R136) -/
  night : Bool
  /-- the calibration seal line is active (R60) -/
  sealed : Bool
  /-- the current-sense line of each lamp is high (R140) -/
  sense : LampBits
  deriving DecidableEq, Repr

/-- How a journal slot reads back at start-up (R119): the slot a filing was being programmed into when power was lost. -/
inductive SlotReading where
  /-- as it read before the programming -/
  | untouched
  | empty
  | whole
  | damaged
  deriving DecidableEq, Repr

/-- What a start-up meets that the part's own state does not decide (R188, R189, R191): whether each check word agrees, how far
the work in flight had got when power was lost, and the levels of the lines. -/
structure StartUp where
  /-- the retention check word agrees with the contents (R188) -/
  retentionGood : Bool
  /-- the check word of the current copy of each two-copy section agrees (R189) -/
  configGood : Bool
  tariffGood : Bool
  totalsGood : Bool
  /-- a section write was in flight and its current mark had been moved when power was lost (R62, R70, R110) -/
  configMarked : Bool
  tariffMarked : Bool
  totalsMarked : Bool
  /-- how the journal slot being programmed when power was lost reads (R119, R129) -/
  slot : SlotReading
  /-- the pages an interrupted journal recovery had already erased (R131; log entry 53) -/
  erased : List Nat
  lines : Lines
  deriving DecidableEq, Repr

/-- The payload of SET_CONFIG as the frame carries it (R185). -/
structure ConfigFields where
  presence       : Byte
  k              : Half
  claimTimeout   : Half
  paymentTimeout : Half
  ceiling        : Word
  pooling        : Byte
  lowWater       : Half
  depth          : Byte
  nightLevel     : Byte
  deriving DecidableEq, Repr

/-- A SET_CONFIG as it is taken: its payload, and whether the calibration seal line is active then (R60). -/
structure SealedFields where
  fields : ConfigFields
  sealed : Bool
  deriving DecidableEq, Repr

/-- The bytes of a write after the naming byte (R174), and whether the calibration seal line is active meanwhile: a frame that they
complete may be a SET_CONFIG (R60). -/
structure SealedBytes where
  bytes  : List Byte
  sealed : Bool
  deriving DecidableEq, Repr

/-- A clock time as a frame carries it (10_ports, Layouts). -/
structure ClockFields where
  year    : Half
  month   : Byte
  day     : Byte
  weekday : Byte
  hour    : Byte
  minute  : Byte
  second  : Byte
  deriving DecidableEq, Repr

/-- The payload of PAYMENT_RESULT as the frame carries it (R82, R185). -/
structure ResultFields where
  slot      : Byte
  hire      : Half
  entry     : Byte
  result    : Byte
  route     : Byte
  reference : BitVec 96
  method    : Byte
  amount    : Word
  tip       : Word
  deriving DecidableEq, Repr

/-- The commands. Every request carries the port it arrived on and the tag of its frame (R180, 10_ports Layouts). -/
inductive Instr where
  -- requests to Shift Accounting
  | openShift (p : PortId) (tag : Byte) (driver : Half)
  | closeShift (p : PortId) (tag : Byte)
  | setPooling (p : PortId) (tag : Byte) (pooling : Byte)
  | readShift (p : PortId) (tag : Byte)
  | latchCounters (p : PortId) (tag : Byte)
  | readCounter (p : PortId) (tag : Byte) (index : Byte)
  -- requests to the Hire Controller
  | book (p : PortId) (tag : Byte) (slot : Byte) (reference : BitVec 64) (deadline : Half)
  | cancelBooking (p : PortId) (tag : Byte) (slot : Byte)
  | startHire (p : PortId) (tag : Byte) (slot : Byte) (choice : Byte)
  | suspend (p : PortId) (tag : Byte) (slot : Byte)
  | resume (p : PortId) (tag : Byte) (slot : Byte)
  | stopHire (p : PortId) (tag : Byte) (slot : Byte)
  | addExtra (p : PortId) (tag : Byte) (slot : Byte) (extra : Byte)
  | removeExtra (p : PortId) (tag : Byte) (slot : Byte) (extra : Byte)
  | closeUnpaid (p : PortId) (tag : Byte) (slot : Byte)
  | readHire (p : PortId) (tag : Byte) (slot : Byte)
  -- requests to the Settlement Unit
  | claim (p : PortId) (tag : Byte) (slot : Byte)
  | release (p : PortId) (tag : Byte) (slot : Byte)
  | beginPayment (p : PortId) (tag : Byte) (slot : Byte) (method : Byte) (amount : Word) (tip : Word)
  | paymentResult (p : PortId) (tag : Byte) (fields : ResultFields)
  | reverse (p : PortId) (tag : Byte) (slot : Byte) (entry : Byte)
  | postCash (p : PortId) (tag : Byte) (slot : Byte) (amount : Word) (tip : Word)
  -- requests to the Tariff Store and the Time Base
  | load (p : PortId) (tag : Byte) (payload : List Byte)
  | compare (p : PortId) (tag : Byte) (payload : List Byte)
  | activate (p : PortId) (tag : Byte)
  | readTariff (p : PortId) (tag : Byte) (set : Byte) (item : Byte) (place : Byte)
  | setConfig (p : PortId) (tag : Byte) (sent : SealedFields)
  | setClock (p : PortId) (tag : Byte) (time : ClockFields)
  | setClockRead (p : PortId) (tag : Byte)
  -- requests to the Journal
  | readJournal (p : PortId) (tag : Byte) (count : Byte)
  | ackJournal (p : PortId) (tag : Byte) (seq : Word)
  | readUnfiled (p : PortId) (tag : Byte)
  | ackUnfiled (p : PortId) (tag : Byte) (count : Byte)
  -- requests to the Sign Driver
  | signOverride (p : PortId) (tag : Byte) (value : Byte)
  | signOverrideReport (p : PortId) (tag : Byte)
  | signTestRun (p : PortId) (tag : Byte)
  | signTestReport (p : PortId) (tag : Byte)
  | signClear (p : PortId) (tag : Byte)
  -- requests to the Intercom Switch
  | setTalkMode (p : PortId) (tag : Byte) (mode : Byte)
  | setVolume (p : PortId) (tag : Byte) (path : Byte) (volume : Byte)
  | readIntercom (p : PortId) (tag : Byte)
  | intercomClear (p : PortId) (tag : Byte)
  | postPrompt (p : PortId) (tag : Byte) (tone : Byte)
  | setMonitor (p : PortId) (tag : Byte) (select : Byte)
  -- requests to the Alarm Unit, the Store Controller and the Port Interface
  | alarmStandDown (p : PortId) (tag : Byte)
  | readAlarmLog (p : PortId) (tag : Byte)
  | clearPart (p : PortId) (tag : Byte)
  | setIndicators (p : PortId) (tag : Byte) (enable : Byte) (value : Byte)
  | readIndicators (p : PortId) (tag : Byte)
  | ackNotices (p : PortId) (tag : Byte) (mask : Word)
  | setNoticeMask (p : PortId) (tag : Byte) (mask : Word)
  | setStageMask (p : PortId) (tag : Byte) (mask : Byte)
  | null (p : PortId) (tag : Byte)
  -- transfers on a port: the bytes after the naming byte, or how many bytes the processor clocks out
  | writeStart (p : PortId) (sent : SealedBytes)
  | writeContinue (p : PortId) (sent : SealedBytes)
  | readFrame (p : PortId) (clocked : Nat)
  | repeatFrame (p : PortId) (clocked : Nat)
  -- the pulse line and the ticks
  | wheelPulse
  | totalMetres100m
  | tick (lines : Lines)
  | fareTick (lines : Lines)
  | ambientChange (lines : Lines)
  | flashPhase (lines : Lines)
  | signTestStep (lines : Lines)
  | bookingExpired (slot : SlotId) (lines : Lines)
  | paymentExpired (slot : SlotId) (entry : Nat) (lines : Lines)
  | claimExpired (slot : SlotId) (lines : Lines)
  -- completions of store work
  | configWriteComplete
  | configWriteFail
  | activationDone
  | activationFailed
  | totalizerWriteComplete
  | totalizerWriteFail
  | journalVerifyPass
  | journalVerifyFail
  | journalRecoveryStart
  | journalRecoveryEnd (failed : List Nat)
  | partClearComplete (lines : Lines)
  -- the alarm line and the audio links
  | alarmPress (lines : Lines)
  | frontCodecFrame (microphone : Sample)
  | rearCodecFrame (microphone : Sample)
  | promptEnd (microphone : Sample)
  | chimeEnd (microphone : Sample)
  -- the clock and the supply
  | rtcSecond
  | powerFailWarning
  | freeze
  | freezeExit (u : StartUp)
  | powerOn (u : StartUp)
  deriving DecidableEq, Repr

end Sys2Proof
end

