-- ==== Sys2Proof/Decode.lean ====
section
/-! DEFINITION. Commands spelled by words of the opcode table: none, since no row of the table gives bits (log entry 7). The transfer that
the bytes of a selection name (R174). -/

/-- The command a word spells by the table's bits: no row gives any. -/
def Sys2Proof.decodeTableWord (_nbits _w : Nat) : Option Sys2Proof.Instr := none

/-- The transfer that the bytes clocked in during one selection of a port name by their first byte: WRITE-START 1, WRITE-CONTINUE 2, READ 3,
REPEAT 4; none for any other first byte and when no byte is clocked in (R174). The bytes clocked in during a read count the bytes shifted
out and are not looked at. -/
def Sys2Proof.transferOf (p : Sys2Proof.PortId) (sealed : Bool) : List Sys2Proof.Byte → Option Sys2Proof.Instr
  | [] => none
  | first :: rest =>
    if first = 1 then some (.writeStart p ⟨rest, sealed⟩)
    else if first = 2 then some (.writeContinue p ⟨rest, sealed⟩)
    else if first = 3 then some (.readFrame p rest.length)
    else if first = 4 then some (.repeatFrame p rest.length)
    else none
end

