-- ==== Sys2Proof/Config.lean ====
section
/-! DEFINITION. What is fixed in the part (limits, the tone table) and the free values the manual leaves open. -/

namespace Sys2Proof

/-- The greatest value of a saturating 32-bit count: shift counters (R105), hire pulses and hire metres (R27). -/
def Config.maxCount : Nat := 4294967295

/-- The greatest steps value (R27, R41). -/
def Config.maxSteps : Nat := 65535

/-- The fare cap on the total due, in cents (R43). -/
def Config.fareCap : Nat := 999999

/-- A lifetime totalizer wraps past 999,999,999 (R108). -/
def Config.totalizerModulus : Nat := 1000000000

/-- Distance units of one wheel pulse (00_scope, Distance; R29). -/
def Config.unitsPerPulse : Nat := 1000

/-- Ticks of the time base in one second (R186). -/
def Config.ticksPerSecond : Nat := 100

/-- The time base count is 48 bits wide (R186). -/
def Config.timeBaseModulus : Nat := 2 ^ 48

/-- The retired list has eight places (R122). -/
def Config.retiredPlaces : Nat := 8

/-- One entry of the tone table (R158). -/
structure ToneEntry where
  halfPeriod : Nat
  amplitude  : Nat
  samples    : Nat
  deriving DecidableEq, Repr

/-- The tone table fixed in the part (R158): tones 0 to 2 are prompts, 3 is the chime. -/
def Config.tone : Nat → ToneEntry
  | 0 => ⟨10, 6000, 960⟩
  | 1 => ⟨5, 8000, 2400⟩
  | 2 => ⟨20, 8000, 4800⟩
  | _ => ⟨8, 10000, 8000⟩

/-- The chime's place in the tone table (R158). -/
def Config.chimeTone : Nat := 3

/-- FREE VALUE: the next sequence number after a record numbered 4,294,967,295 is verified. R117 gives the number the values
0..4,294,967,295 and says it rises by one; it states no value past the last. Applied to the number of such draws (log entry 1). -/
opaque Config.sequenceAfterLast : Nat → BitVec 32

/-- FREE VALUE: by how much the extras amount falls when REMOVE_EXTRA removes an extra whose place of the active set is empty, which
only a start-up that lost the tariff section can bring about (R52). R18 takes the amount from the extras table and states none for
an empty place. Applied to the number of such draws (log entry 1). -/
opaque Config.amountOfEmptyPlace : Nat → BitVec 32

end Sys2Proof
end

