-- ==== Sys2Proof/Machine/State.lean ====
section
/-! DEFINITION. The state of the FC-310: everything the manual gives the part, as plain data, and the state after reset. -/

namespace Sys2Proof.Machine

/-! ### Names the manual lists -/

/-- The stage of a hire (R2); numbered from 0 in this order (R182). -/
inductive Stage where
  | free
  | booked
  | engaged
  | metering
  | suspended
  | stopped
  | filing
  deriving DecidableEq, Repr

/-- The kind of a tariff (R53). -/
inductive TariffKind where
  | metered
  | fixed
  deriving DecidableEq, Repr

/-- The mode of a band (R53). -/
inductive BandMode where
  | combined
  | parallel
  | distance
  | time
  deriving DecidableEq, Repr

/-- Why a hire is SUSPENDED (R2). -/
inductive SuspendReason where
  | driver
  | power
  deriving DecidableEq, Repr

/-- How a hire went to FILING (R2). -/
inductive HireOutcome where
  | paid
  | unpaid
  deriving DecidableEq, Repr

/-- The method of a payment (R73). -/
inductive PayMethod where
  | card
  | cash
  | account
  deriving DecidableEq, Repr

/-- The route of a payment (R73). -/
inductive Route where
  | online
  | offline
  deriving DecidableEq, Repr

/-- The state of a payment entry (R73). -/
inductive PayState where
  | pending
  | approved
  | declined
  | expired
  | reversed
  deriving DecidableEq, Repr

/-- The state of the shift (R96). -/
inductive ShiftState where
  | closed
  | opened
  | closing
  deriving DecidableEq, Repr

/-- The totalizer status (R109, R111, R112). -/
inductive TotalsStatus where
  | ok
  | behind
  | lost
  deriving DecidableEq, Repr

/-- The outcome of the last activation since power-on (R71). -/
inductive ActivationOutcome where
  | noneYet
  | done
  | failed
  deriving DecidableEq, Repr

/-- The kind of an open chain (R63). -/
inductive ChainKind where
  | load
  | compare
  deriving DecidableEq, Repr

/-- The cause of a journal FAULT (R123). -/
inductive FaultCause where
  | reserve
  | retiredList
  deriving DecidableEq, Repr

/-- The journal state (R123). Writing is closed exactly in FAULT with cause RETIRED_LIST (R119, R122, R130). -/
inductive JournalState where
  | normal
  | fault (cause : FaultCause)
  deriving DecidableEq, Repr

/-- The driver's override of the sign (R132). -/
inductive Override where
  | auto
  | offDuty
  | full
  deriving DecidableEq, Repr

/-- The exclusive group of front lamps (R133). -/
inductive GroupLamp where
  | vacant
  | hired
  | offDuty
  deriving DecidableEq, Repr

/-- The five lamps in the order the sign test lights them (R143). -/
inductive LampId where
  | vacant
  | hired
  | offDuty
  | share
  | alarm
  deriving DecidableEq, Repr

/-- The talk mode (R145). -/
inductive TalkMode where
  | off
  | duplex
  | ptt
  | privateTalk
  deriving DecidableEq, Repr

/-- The state of an intercom path (R153). -/
inductive PathState where
  | closed
  | waiting
  | opened
  deriving DecidableEq, Repr

/-- The two intercom paths: front to rear and rear to front (R145; 0 and 1 in a frame, R185). -/
inductive PathId where
  | fr
  | rf
  deriving DecidableEq, Repr

/-- The monitor select (R145). -/
inductive MonitorSelect where
  | off
  | cabin
  | front
  | mix
  deriving DecidableEq, Repr

/-- The alarm state (R165). -/
inductive AlarmState where
  | quiet
  | active
  deriving DecidableEq, Repr

/-- The status of the real-time clock (R187). -/
inductive ClockStatus where
  | set
  | unset
  deriving DecidableEq, Repr

/-- Where the part stands between the power-fail warning and a start-up (R190). -/
inductive PowerPhase where
  | running
  | failing
  | frozen
  deriving DecidableEq, Repr

/-- Where Part clear stands (R192) and, with it, the journal recovery (R130). -/
inductive PartClear where
  /-- no Part clear is in flight -/
  | idle
  /-- in flight, no recovery to run -/
  | plain
  /-- in flight, a recovery decided on and waiting for the filing queue to empty -/
  | waiting
  /-- in flight, the recovery running -/
  | recovering
  deriving DecidableEq, Repr

/-! ### The clock -/

/-- A clock time (R187; weekday 1..7, Monday 1, 10_ports Layouts). -/
structure ClockTime where
  year    : Nat
  month   : Nat
  day     : Nat
  weekday : Nat
  hour    : Nat
  minute  : Nat
  second  : Nat
  deriving DecidableEq, Repr

/-- Saturday 1 January 2000, 00:00:00 (R187). -/
def ClockTime.first : ClockTime := ⟨2000, 1, 1, 6, 0, 0, 0⟩

/-! ### Hires and payments -/

/-- The booking of a slot (R2, R7). -/
structure Booking where
  reference : BitVec 64
  deadline  : ClockTime
  deriving DecidableEq, Repr

/-- A claim: its port and its expiry as a value of the time base count (R72). -/
structure Claim where
  port   : PortId
  expiry : Nat
  deriving DecidableEq, Repr

/-- A payment entry (R73). -/
structure Payment where
  method    : PayMethod
  amount    : Nat
  tip       : Nat
  route     : Option Route
  reference : Option (BitVec 96)
  state     : PayState
  port      : PortId
  due       : Option Nat
  late      : Bool
  deriving DecidableEq, Repr

/-- A hire record (R2, R27). A field the manual marks absent in some stages is an Option. -/
structure Hire where
  stage         : Stage
  number        : Option Nat
  booking       : Option Booking
  tariffId      : Nat
  tariffKind    : TariffKind
  flagFall      : Nat
  band          : Nat
  distInitial   : Bool
  timeInitial   : Bool
  distAcc       : Nat
  timeAcc       : Nat
  residue       : Nat
  metered       : Nat
  extras        : List (Nat × Nat)
  extrasAmount  : Nat
  steps         : Nat
  capped        : Bool
  pulses        : Nat
  metres        : Nat
  metreRem      : Nat
  startTime     : ClockTime
  stopTime      : Option ClockTime
  suspendReason : Option SuspendReason
  resumeStage   : Option Stage
  pendingStop   : Bool
  claim         : Option Claim
  payments      : List Payment
  outcome       : Option HireOutcome
  /-- a start-up that found the tariff section bad found this hire aboard: it is charged no step for the rest of its life (R52) -/
  unmetered     : Bool
  deriving DecidableEq, Repr

/-- The cleared record of a FREE slot (R1). The fields that are no Option carry no value in it; they hold zeros, which nothing
reads while the slot is FREE or BOOKED. -/
def Hire.cleared : Hire where
  stage := .free
  number := none
  booking := none
  tariffId := 0
  tariffKind := .metered
  flagFall := 0
  band := 0
  distInitial := false
  timeInitial := false
  distAcc := 0
  timeAcc := 0
  residue := 0
  metered := 0
  extras := []
  extrasAmount := 0
  steps := 0
  capped := false
  pulses := 0
  metres := 0
  metreRem := 0
  startTime := ⟨0, 0, 0, 0, 0, 0, 0⟩
  stopTime := none
  suspendReason := none
  resumeStage := none
  pendingStop := false
  claim := none
  payments := []
  outcome := none
  unmetered := false

/-- The hire table (R1). -/
structure HireTable where
  a : Hire
  b : Hire
  c : Hire
  deriving DecidableEq, Repr

/-! ### Tariffs and configuration -/

/-- A band of a tariff (R53). -/
structure Band where
  start  : Nat
  step   : Nat
  time   : Nat
  amount : Nat
  mode   : BandMode
  deriving DecidableEq, Repr

/-- A tariff record; its id is its place (R53). -/
structure Tariff where
  kind     : TariffKind
  manual   : Bool
  flagFall : Nat
  d0       : Nat
  t0       : Nat
  s2       : Nat
  s3       : Nat
  bands    : List Band
  deriving DecidableEq, Repr

/-- A calendar entry; bit 0 of the weekday set is Monday (R55, 10_ports Chain blocks). -/
structure CalendarEntry where
  weekdays : BitVec 7
  start    : Nat
  tariff   : Nat
  deriving DecidableEq, Repr

/-- An extras entry (R58). -/
structure ExtraEntry where
  amount    : Nat
  maxCount  : Nat
  afterStop : Bool
  deriving DecidableEq, Repr

/-- A tariff set: eight tariff, thirty-two calendar and eight extras places, each present or empty (R51).
Tariff and extras id n is at place n − 1; calendar index i at place i. -/
structure TariffSet where
  tariffs  : List (Option Tariff)
  calendar : List (Option CalendarEntry)
  extras   : List (Option ExtraEntry)
  deriving DecidableEq, Repr

/-- The set with every place empty (R51). -/
def TariffSet.blank : TariffSet where
  tariffs := List.replicate 8 none
  calendar := List.replicate 32 none
  extras := List.replicate 8 none

/-- The configuration record (R59). -/
structure ConfigRecord where
  k              : Nat
  claimTimeout   : Nat
  paymentTimeout : Nat
  ceiling        : Nat
  pooling        : Bool
  lowWater       : Nat
  depth          : Nat
  nightLevel     : Nat
  deriving DecidableEq, Repr

/-- The values of the record when its section is bad (R59). -/
def ConfigRecord.lost : ConfigRecord where
  k := 1000
  claimTimeout := 120
  paymentTimeout := 90
  ceiling := 50000
  pooling := false
  lowWater := 64
  depth := 64
  nightLevel := 6

/-- A section of the store with two copies and a current mark (R189). A copy that was never written is `none`. -/
structure Section (α : Type) where
  copyA    : Option α
  copyB    : Option α
  currentB : Bool
  deriving DecidableEq, Repr

/-- A section never written: neither copy holds anything, and the current mark names copy A, the model's choice (log entry 54, DESIGN
CHOICE). -/
def Section.unwritten {α : Type} : Section α := ⟨none, none, false⟩

/-- The state of the Fleet port's chain (R63). -/
structure Chain where
  kind      : Option ChainKind
  blocks    : Nat
  stopped   : Bool
  ok        : Nat
  failed    : Nat
  skipped   : Nat
  firstDiff : Option Nat
  deriving DecidableEq, Repr

/-- No chain is open and all of it is cleared (R63). -/
def Chain.cleared : Chain := ⟨none, 0, false, 0, 0, 0, none⟩

/-- What the Tariff Store owns (R51 to R71). -/
structure TariffStore where
  active            : TariffSet
  staging           : TariffSet
  tariffSection     : Section TariffSet
  /-- the set an activation in flight is writing (R68, R69) -/
  activation        : Option TariffSet
  activationOutcome : ActivationOutcome
  config            : ConfigRecord
  configSection     : Section ConfigRecord
  /-- a configuration write in flight, with its failures so far (R62) -/
  configWrite       : Option Nat
  configBehind      : Bool
  chain             : Chain
  deriving DecidableEq, Repr

/-! ### Shift Accounting -/

/-- A shift counter with its saturation mark (R105). -/
structure Counter where
  value : Nat
  mark  : Bool
  deriving DecidableEq, Repr

/-- The five lifetime totalizers (R108). -/
structure Totals where
  totalMetres : Nat
  hiredMetres : Nat
  hires       : Nat
  steps       : Nat
  fare        : Nat
  deriving DecidableEq, Repr

/-- A totalizer write in flight: the values handed to it and its failures so far (R109). -/
structure TotalsWrite where
  values   : Totals
  failures : Nat
  deriving DecidableEq, Repr

/-- What Shift Accounting owns (R96 to R115). -/
structure ShiftAccounting where
  state         : ShiftState
  number        : Nat
  driver        : Option Nat
  pooling       : Bool
  ceiling       : Nat
  offlineTotal  : Nat
  openTime      : Option ClockTime
  closeTime     : Option ClockTime
  /-- the summary is IN_FLIGHT -/
  summary       : Bool
  /-- counter n of R105 is at place n − 1 -/
  counters      : List Counter
  totals        : Totals
  totalsSection : Section Totals
  totalsWrite   : Option TotalsWrite
  /-- a totalizer write was asked for while one was in flight (R109) -/
  remembered    : Bool
  /-- metres gained since the values were last handed to a write (R109) -/
  gained        : Nat
  totalsStatus  : TotalsStatus
  deriving DecidableEq, Repr

/-! ### The Journal -/

/-- The content of a HIRE record (R116). -/
structure HireRecord where
  slot      : SlotId
  number    : Nat
  tariffId  : Nat
  reference : Option (BitVec 64)
  startTime : ClockTime
  stopTime  : ClockTime
  metres    : Nat
  steps     : Nat
  flagFall  : Nat
  metered   : Nat
  tips      : Nat
  extras    : List (Nat × Nat)
  capped    : Bool
  unpaid    : Bool
  payments  : List Payment
  deriving DecidableEq, Repr

/-- The content of a record by its kind (R116). -/
inductive RecordBody where
  | hire (r : HireRecord)
  | shift (driver : Nat) (openTime closeTime : ClockTime) (counters : List Counter)
  | lateApproval (slot : SlotId) (number : Nat) (method : PayMethod) (amount tip : Nat) (reference : BitVec 96)
  | activation (changed : List Nat)
  | retentionLost
  deriving DecidableEq, Repr

/-- A record as it was handed over: shift number, clock time and content (R116). Its sequence number is given when it is
programmed (R117). -/
structure JournalRecord where
  shiftNumber : Nat
  time        : ClockTime
  body        : RecordBody
  deriving DecidableEq, Repr

/-- What a journal slot that is not empty holds (R119). -/
inductive SlotContent where
  | whole (seq : Nat) (r : JournalRecord)
  | damaged
  deriving DecidableEq, Repr

/-- The journal pages: (slot number, contents) with slot number = 16 × page + slot, in rising order; an unlisted slot is empty. -/
abbrev JournalStore := List (Nat × SlotContent)

/-- A place of the journal (R118). -/
structure Place where
  page : Nat
  slot : Nat
  deriving DecidableEq, Repr

/-- The programming in flight: the sequence number taken and the place (R117, R121). -/
structure Filing where
  seq   : Nat
  place : Place
  deriving DecidableEq, Repr

/-- What the Journal owns (R117 to R131). -/
structure Journal where
  store    : JournalStore
  writer   : Place
  nextSeq  : Nat
  acked    : Nat
  retired  : List Nat
  state    : JournalState
  low      : Bool
  queue    : List JournalRecord
  inFlight : Option Filing
  unfiled  : List JournalRecord
  deriving DecidableEq, Repr

/-! ### The Sign Driver -/

/-- One lamp (R132). -/
structure Lamp where
  goal   : Nat
  level  : Nat
  fault  : Bool
  misses : Nat
  deriving DecidableEq, Repr

/-- A dark lamp with no fault (R132). -/
def Lamp.dark : Lamp := ⟨0, 0, false, 0⟩

/-- The five lamps. -/
structure Lamps where
  vacant  : Lamp
  hired   : Lamp
  offDuty : Lamp
  share   : Lamp
  alarm   : Lamp
  deriving DecidableEq, Repr

/-- The target: the group lamp that should be lit, if any, and whether SHARE should be (R133, R134). -/
structure Target where
  group : Option GroupLamp
  share : Bool
  deriving DecidableEq, Repr

/-- A running sign test (R143). -/
structure SignTest where
  lamp : LampId
  left : Nat
  deriving DecidableEq, Repr

/-- The alarm flash: its phase and the ticks left in it (R139). -/
structure Flash where
  on   : Bool
  left : Nat
  deriving DecidableEq, Repr

/-- What the Sign Driver owns (R132). -/
structure Sign where
  override : Override
  target   : Target
  lamps    : Lamps
  /-- the ambient value is NIGHT -/
  night    : Bool
  disagree : Nat
  test     : Option SignTest
  flash    : Option Flash
  deriving DecidableEq, Repr

/-! ### The Intercom Switch -/

/-- One intercom path (R145). -/
structure Path where
  state      : PathState
  buffer     : List Sample
  depth      : Nat
  centring   : Bool
  last       : Sample
  volume     : Nat
  gain       : Nat
  readCount  : Nat
  overflows  : Nat
  underflows : Nat
  peak       : Nat
  deriving DecidableEq, Repr

/-- A tone being played: its number, the samples left and the wave position (R158). -/
structure Playing where
  tone : Nat
  left : Nat
  pos  : Nat
  deriving DecidableEq, Repr

/-- What the Intercom Switch owns (R145), and the last sample sent on each of its outputs (R149, R162). -/
structure Intercom where
  mode       : TalkMode
  /-- push-to-talk is HELD -/
  held       : Bool
  talkOlder  : Bool
  talkNewer  : Bool
  callOlder  : Bool
  callNewer  : Bool
  fr         : Path
  rf         : Path
  /-- the prompt at the head of the queue -/
  playing    : Option Playing
  /-- the entry behind it, if any -/
  waiting    : List Nat
  chime      : Option Playing
  monitor    : MonitorSelect
  frontOut   : Sample
  rearOut    : Sample
  monitorOut : Sample
  deriving DecidableEq, Repr

/-! ### The Alarm Unit -/

/-- An entry of the alarm log (R165). -/
structure AlarmEntry where
  activated : ClockTime
  stoodDown : Option ClockTime
  presses   : Nat
  stageA    : Stage
  stageB    : Stage
  stageC    : Stage
  deriving DecidableEq, Repr

/-- What the Alarm Unit owns (R165). -/
structure Alarm where
  state      : AlarmState
  /-- oldest first -/
  log        : List AlarmEntry
  armed      : Bool
  pressRun   : Nat
  releaseRun : Nat
  deriving DecidableEq, Repr

/-! ### The Port Interface -/

/-- A frame: its four header bytes but for the length, and its payload (10_ports, Frame). -/
structure Frame where
  kind    : Byte
  tag     : Byte
  flags   : Byte
  payload : List Byte
  deriving DecidableEq, Repr

/-- A port's snapshot (R113). -/
structure Snapshot where
  counters : List Counter
  totals   : Totals
  number   : Nat
  state    : ShiftState
  deriving DecidableEq, Repr

/-- What each port holds (R173), and the bytes with meaning it shifted out in its last READ or REPEAT transfer (R174). -/
structure Port where
  /-- IDLE is `none`; RECEIVING holds the bytes taken so far -/
  receive   : Option (List Byte)
  /-- the frames of the reply to the last request taken -/
  reply     : List Frame
  /-- how many of them have been read -/
  readCount : Nat
  refusal   : Option Frame
  lastRead  : Option Frame
  notices   : Word
  enable    : Word
  stageMask : BitVec 7
  snapshot  : Option Snapshot
  wire      : List Byte
  deriving DecidableEq, Repr

/-- The three ports. -/
structure Ports where
  console : Port
  payment : Port
  fleet   : Port
  deriving DecidableEq, Repr

/-! ### The part -/

/-- The state of the FC-310. -/
structure State where
  /-- the commands waiting, first in first out -/
  pending     : List Instr
  power       : PowerPhase
  closedMark  : Bool
  /-- the retention check word stands over the contents (R188) -/
  checkWord   : Bool
  pins        : Lines
  timeBase    : Nat
  clock       : ClockTime
  clockStatus : ClockStatus
  hires       : HireTable
  nextHire    : Nat
  vacantRem   : Nat
  odoRem      : Nat
  tariffs     : TariffStore
  shift       : ShiftAccounting
  journal     : Journal
  sign        : Sign
  intercom    : Intercom
  alarm       : Alarm
  ports       : Ports
  indicators  : BitVec 4
  partClear   : PartClear
  /-- the model's own: free values drawn so far, of `Config.sequenceAfterLast` and `Config.amountOfEmptyPlace` (log entry 1) -/
  draws       : Nat
  deriving DecidableEq, Repr

/-- Reasons the part stops with a fault: none. The manual names no condition under which the part stops (INVENTORY, Faults), so no
meaning raises one. -/
inductive Fault where
  deriving DecidableEq, Repr

/-- Reasons a command has no meaning. -/
inductive Refusal where
  /-- Raised only by an arm of `exec` for a command that has no meaning yet; no such arm is left. Safe: nothing is claimed of it. -/
  | notModelled (mnemonic : String)
  deriving DecidableEq, Repr

/-! ### Reset -/

/-- The path values at power-on (R145), with the depth of R59. -/
def Path.reset : Path := ⟨.closed, [], 64, false, 0, 8, 0, 0, 0, 0, 0⟩

/-- A port at power-on (R173), for the kinds delivered to it and its default stage-notice mask. -/
def Port.reset (enable : Word) (stageMask : BitVec 7) : Port :=
  ⟨none, [], 0, none, none, 0x8000, enable, stageMask, none, []⟩

/-- The lines as reset takes them (log entry 5, DESIGN CHOICE). -/
def Lines.reset : Lines := ⟨false, false, false, false, false, ⟨false, false, false, false, false⟩⟩

/-- The part after the start-up of a new part: retention memory found bad, store never written (R1, R28, R51, R59, R96, R111, R119,
R132, R145, R165, R173, R186, R187, R191; log entry 2). The RETENTION_LOST record is being filed (R119). -/
def State.reset : State where
  pending := []
  power := .running
  closedMark := false
  checkWord := false
  pins := Lines.reset
  timeBase := 0
  clock := ClockTime.first
  clockStatus := .unset
  hires := ⟨Hire.cleared, Hire.cleared, Hire.cleared⟩
  nextHire := 1
  vacantRem := 0
  odoRem := 0
  tariffs := {
    active := TariffSet.blank
    staging := TariffSet.blank
    tariffSection := Section.unwritten
    activation := none
    activationOutcome := .noneYet
    config := ConfigRecord.lost
    configSection := Section.unwritten
    configWrite := none
    configBehind := false
    chain := Chain.cleared }
  shift := {
    state := .closed
    number := 0
    driver := none
    pooling := false
    ceiling := 0
    offlineTotal := 0
    openTime := none
    closeTime := none
    summary := false
    counters := List.replicate 15 ⟨0, false⟩
    totals := ⟨0, 0, 0, 0, 0⟩
    totalsSection := Section.unwritten
    totalsWrite := none
    remembered := false
    gained := 0
    totalsStatus := .lost }
  journal := {
    store := []
    writer := ⟨0, 0⟩
    nextSeq := 1
    acked := 0
    retired := []
    state := .normal
    low := false
    queue := [⟨0, ClockTime.first, .retentionLost⟩]
    inFlight := some ⟨1, ⟨0, 0⟩⟩
    unfiled := [] }
  sign := {
    override := .auto
    target := ⟨none, false⟩
    lamps := ⟨Lamp.dark, Lamp.dark, Lamp.dark, Lamp.dark, Lamp.dark⟩
    night := false
    disagree := 0
    test := none
    flash := none }
  intercom := {
    mode := .off
    held := false
    talkOlder := false
    talkNewer := false
    callOlder := false
    callNewer := false
    fr := Path.reset
    rf := Path.reset
    playing := none
    waiting := []
    chime := none
    monitor := .off
    frontOut := 0
    rearOut := 0
    monitorOut := 0 }
  alarm := ⟨.quiet, [], true, 0, 0⟩
  ports := {
    console := Port.reset 0x2979F 0x7F
    payment := Port.reset 0x80B7 0x60
    fleet := Port.reset 0x1EFFF 0x40 }
  indicators := 0
  partClear := .idle
  draws := 0

end Sys2Proof.Machine
end

