-- ==== Sys2Proof/Machine/Ops.lean ====
section
/-! DEFINITION. The named operations over the state: bytes and the check word, the hire table, the ports, places of the tariff
sets, shift counters, and the check tables of the rules. -/

namespace Sys2Proof.Machine

/-! ### Bytes (10_ports Layouts: unsigned, most significant byte first) -/

/-- A number in one byte. -/
def be1 (n : Nat) : List Byte := [BitVec.ofNat 8 n]

/-- A number in two bytes. -/
def be2 (n : Nat) : List Byte := [BitVec.ofNat 8 (n / 256), BitVec.ofNat 8 n]

/-- A number in four bytes. -/
def be4 (n : Nat) : List Byte :=
  [BitVec.ofNat 8 (n / 16777216), BitVec.ofNat 8 (n / 65536), BitVec.ofNat 8 (n / 256), BitVec.ofNat 8 n]

/-- A number in n bytes. -/
def beBytes : Nat → Nat → List Byte
  | 0, _ => []
  | n + 1, x => beBytes n (x / 256) ++ [BitVec.ofNat 8 x]

/-- The number that bytes spell. -/
def beNat (bs : List Byte) : Nat := bs.foldl (fun acc b => acc * 256 + b.toNat) 0

/-- A flag in one byte. -/
def flagByte (b : Bool) : Byte := if b then 1 else 0

/-- Flags as the low bits of a number, the first flag bit 0. -/
def bitsOf : List Bool → Nat
  | [] => 0
  | b :: bs => (if b then 1 else 0) + 2 * bitsOf bs

/-! ### The check word (10_ports, Frame) -/

/-- One bit of the CRC-16 register, polynomial x^16+x^12+x^5+1. -/
def crcShift (r : BitVec 16) : BitVec 16 :=
  if r.msb then (r <<< 1) ^^^ 0x1021#16 else r <<< 1

/-- n shifts of the register. -/
def crcShifts : Nat → BitVec 16 → BitVec 16
  | 0, r => r
  | n + 1, r => crcShifts n (crcShift r)

/-- One byte, most significant bit first. -/
def crcByte (r : BitVec 16) (b : Byte) : BitVec 16 :=
  crcShifts 8 (r ^^^ (b.setWidth 16 <<< 8))

/-- The check word over bytes: the register starts at all ones and is sent without inversion. -/
def crc16 (bs : List Byte) : BitVec 16 := bs.foldl crcByte 0xFFFF#16

/-! ### Check tables -/

/-- The result codes, numbered from 0 in this order (R179). -/
inductive Code where
  | ok
  | accepted
  | busy
  | notPermitted
  | badStage
  | claimed
  | notClaimant
  | noSuch
  | range
  | full
  | late
  | overCeiling
  | shiftState
  | storeBusy
  | journalFault
  | notLatched
  | frameCheck
  | noTariff
  | sealed
  | skipped
  deriving DecidableEq, Repr

/-- The number of a result code: the first byte of a reply payload (R179). -/
def Code.byte : Code → Byte
  | .ok => 0
  | .accepted => 1
  | .busy => 2
  | .notPermitted => 3
  | .badStage => 4
  | .claimed => 5
  | .notClaimant => 6
  | .noSuch => 7
  | .range => 8
  | .full => 9
  | .late => 10
  | .overCeiling => 11
  | .shiftState => 12
  | .storeBusy => 13
  | .journalFault => 14
  | .notLatched => 15
  | .frameCheck => 16
  | .noTariff => 17
  | .sealed => 18
  | .skipped => 19

/-- A table of checks made in order: the code of the first that fails, or none when every check passes. -/
def firstRefusal : List (Bool × Code) → Option Code
  | [] => none
  | (holds, code) :: rest => if holds then firstRefusal rest else some code

/-! ### The hire table and the ports -/

/-- The slots in the order A, B, C. -/
def SlotId.all : List SlotId := [.a, .b, .c]

/-- The slot a byte names: 0, 1 or 2 (R185). -/
def slotOf (b : Byte) : Option SlotId :=
  if b = 0 then some .a else if b = 1 then some .b else if b = 2 then some .c else none

/-- The byte of a slot (R185). -/
def slotByte : SlotId → Byte
  | .a => 0
  | .b => 1
  | .c => 2

/-- The record of a slot. -/
def HireTable.get (t : HireTable) : SlotId → Hire
  | .a => t.a
  | .b => t.b
  | .c => t.c

/-- The table with the record of one slot replaced. -/
def HireTable.put (t : HireTable) (sl : SlotId) (h : Hire) : HireTable :=
  match sl with
  | .a => { t with a := h }
  | .b => { t with b := h }
  | .c => { t with c := h }

/-- How many slots satisfy a test. -/
def HireTable.count (t : HireTable) (f : Hire → Bool) : Nat :=
  (if f t.a then 1 else 0) + (if f t.b then 1 else 0) + (if f t.c then 1 else 0)

/-- A slot that is not FREE. -/
def Hire.occupied (h : Hire) : Bool := h.stage != .free

/-- A running hire: ENGAGED or METERING. -/
def Hire.running (h : Hire) : Bool := h.stage == .engaged || h.stage == .metering

/-- The number of hire slots that are not FREE (R118). -/
def HireTable.occupied (t : HireTable) : Nat := t.count Hire.occupied

/-- Every slot is FREE. -/
def HireTable.allFree (t : HireTable) : Bool := t.occupied == 0

/-- The number of running hires: n of R40. -/
def HireTable.running (t : HireTable) : Nat := t.count Hire.running

/-- Every slot but this one is FREE (R7, R10). -/
def HireTable.othersFree (t : HireTable) (sl : SlotId) : Bool := (t.put sl Hire.cleared).allFree

/-- The record of a slot of the part. -/
def State.hire (s : State) (sl : SlotId) : Hire := s.hires.get sl

/-- The part with the record of one slot replaced. -/
def State.putHire (s : State) (sl : SlotId) (h : Hire) : State := { s with hires := s.hires.put sl h }

/-- What a port holds. -/
def Ports.get (q : Ports) : PortId → Port
  | .console => q.console
  | .payment => q.payment
  | .fleet => q.fleet

/-- The ports with one replaced. -/
def Ports.put (q : Ports) (p : PortId) (x : Port) : Ports :=
  match p with
  | .console => { q with console := x }
  | .payment => { q with payment := x }
  | .fleet => { q with fleet := x }

/-- What a port of the part holds. -/
def State.port (s : State) (p : PortId) : Port := s.ports.get p

/-- The part with one port replaced. -/
def State.putPort (s : State) (p : PortId) (x : Port) : State := { s with ports := s.ports.put p x }

/-! ### Places of a tariff set (R51) -/

/-- The tariff of an id, none when the place is empty or the id names no place. -/
def TariffSet.tariff (t : TariffSet) (id : Nat) : Option Tariff :=
  if id = 0 then none else (t.tariffs.getD (id - 1) none)

/-- The calendar entry of an index. -/
def TariffSet.entry (t : TariffSet) (i : Nat) : Option CalendarEntry := t.calendar.getD i none

/-- The extra of an id. -/
def TariffSet.extra (t : TariffSet) (id : Nat) : Option ExtraEntry :=
  if id = 0 then none else (t.extras.getD (id - 1) none)

/-- At least one tariff place is present (R97). -/
def TariffSet.hasTariff (t : TariffSet) : Bool := t.tariffs.any Option.isSome

/-- At least one place of any kind is present (R67). -/
def TariffSet.hasAny (t : TariffSet) : Bool :=
  t.tariffs.any Option.isSome || t.calendar.any Option.isSome || t.extras.any Option.isSome

/-- The current copy of a section (R189). -/
def Section.current {α : Type} (x : Section α) : Option α := if x.currentB then x.copyB else x.copyA

/-- A completed section write: the spare copy holds the value and the current mark has moved to it (R189). -/
def Section.write {α : Type} (x : Section α) (v : α) : Section α :=
  if x.currentB then { x with copyA := some v, currentB := false } else { x with copyB := some v, currentB := true }

/-! ### Shift counters (R105) -/

/-- The fifteen counters by name; counter n of R105 stands at place n − 1. -/
inductive CounterId where
  | hiresFiled
  | hiresUnpaid
  | hiredMetres
  | vacantMetres
  | steps
  | meteredTotal
  | extrasTotal
  | tipsTotal
  | cardTotal
  | cashTotal
  | accountTotal
  | offlineCardTotal
  | lateApprovals
  | suspensions
  | powerInterruptions
  deriving DecidableEq, Repr

/-- The place of a counter. -/
def CounterId.place : CounterId → Nat
  | .hiresFiled => 0
  | .hiresUnpaid => 1
  | .hiredMetres => 2
  | .vacantMetres => 3
  | .steps => 4
  | .meteredTotal => 5
  | .extrasTotal => 6
  | .tipsTotal => 7
  | .cardTotal => 8
  | .cashTotal => 9
  | .accountTotal => 10
  | .offlineCardTotal => 11
  | .lateApprovals => 12
  | .suspensions => 13
  | .powerInterruptions => 14

/-- Fifteen counters at 0 with their marks clear (R96, R98). -/
def freshCounters : List Counter := List.replicate 15 ⟨0, false⟩

/-- An addition to a counter, saturating with its mark; once marked it stays at its greatest value (R105). -/
def Counter.add (c : Counter) (n : Nat) : Counter :=
  if c.mark then c
  else if Config.maxCount < c.value + n then ⟨Config.maxCount, true⟩
  else ⟨c.value + n, false⟩

/-- The value of a counter. -/
def ShiftAccounting.counter (x : ShiftAccounting) (id : CounterId) : Counter := x.counters.getD id.place ⟨0, false⟩

/-- Shift Accounting with an addition made to one counter. -/
def ShiftAccounting.count (x : ShiftAccounting) (id : CounterId) (n : Nat) : ShiftAccounting :=
  { x with counters := x.counters.set id.place ((x.counter id).add n) }

/-- The part with an addition made to one shift counter. -/
def State.count (s : State) (id : CounterId) (n : Nat) : State := { s with shift := s.shift.count id n }

/-- A totalizer addition: it wraps from 999,999,999 to 0 (R108). -/
def wrapAdd (v n : Nat) : Nat := (v + n) % Config.totalizerModulus

/-! ### Work in flight -/

/-- An activation, a configuration write or a Part clear is in flight (R60, R68, R97, R192). -/
def State.storeBusy (s : State) : Bool :=
  s.tariffs.activation.isSome || s.tariffs.configWrite.isSome || s.partClear != .idle

/-- The part runs; before the freeze and in it no event but RTC_SECOND and the supply's own is taken (R190). -/
def State.runs (s : State) : Bool := s.power == .running

/-- An event that is taken only while the part runs (R190). -/
def whenRunning (f : State → State) (s : State) : State := if s.runs then f s else s

end Sys2Proof.Machine
end

