-- ==== Sys2Proof/Machine/Flags.lean ====
section
/-! DEFINITION. Notices, masks and the attention lines (R173, R181, R182), the lamp targets and goals of the roof sign (R133, R134,
R136) and the stage change that reaches both (R5). -/

namespace Sys2Proof.Machine

/-! ### Notices -/

/-- The notice kinds (10_ports, Notices). -/
inductive NoticeKind where
  | stageA
  | stageB
  | stageC
  | bookingExpired
  | claimExpired
  | paymentExpired
  | lateApproval
  | shiftClosed
  | journalLow
  | journalFault
  | signFault
  | signTestDone
  | call
  | activationDone
  | clearDone
  | powerRestored
  | alarm
  | indicator
  deriving DecidableEq, Repr

/-- The bit of a kind in the masks (R182). -/
def NoticeKind.bit : NoticeKind → Nat
  | .stageA => 0
  | .stageB => 1
  | .stageC => 2
  | .bookingExpired => 3
  | .claimExpired => 4
  | .paymentExpired => 5
  | .lateApproval => 6
  | .shiftClosed => 7
  | .journalLow => 8
  | .journalFault => 9
  | .signFault => 10
  | .signTestDone => 11
  | .call => 12
  | .activationDone => 13
  | .clearDone => 14
  | .powerRestored => 15
  | .alarm => 16
  | .indicator => 17

/-- The mask of one kind. -/
def NoticeKind.mask (k : NoticeKind) : Word := BitVec.ofNat 32 (2 ^ k.bit)

/-- The kind is pending in the port's notice set. -/
def Port.holds (x : Port) (k : NoticeKind) : Bool := x.notices.getLsbD k.bit

/-- The kinds delivered to a port: the enable mask after power-on and the bits an enable mask may hold (R173, R182). -/
def deliveredMask : PortId → Word
  | .console => 0x2979F
  | .payment => 0x80B7
  | .fleet => 0x1EFFF

/-- The default stage-notice masks: every stage; STOPPED and FILING; FILING (R5, R173). -/
def defaultStageMask : PortId → BitVec 7
  | .console => 0x7F
  | .payment => 0x60
  | .fleet => 0x40

/-- The kind joins the port's notice set; a kind already pending stays pending once (R181). -/
def Port.add (x : Port) (k : NoticeKind) : Port := { x with notices := x.notices ||| k.mask }

/-- The kind is added to the notice set of one port (R181). -/
def State.notify (s : State) (p : PortId) (k : NoticeKind) : State := s.putPort p ((s.port p).add k)

/-- The kind is added to the notice sets of the Console and Fleet ports. -/
def State.notifyConsoleFleet (s : State) (k : NoticeKind) : State := (s.notify .console k).notify .fleet k

/-- The kind is added to the notice sets of all three ports. -/
def State.notifyAll (s : State) (k : NoticeKind) : State := ((s.notify .console k).notify .payment k).notify .fleet k

/-- A port's attention line: its notice set and its enable mask have a kind in common; negated from the power-fail warning on
(R181, R190). -/
def attention (s : State) (p : PortId) : Bool :=
  s.runs && ((s.port p).notices &&& (s.port p).enable) != 0

/-! ### Stage notices -/

/-- The bit of a stage in a stage-notice mask (R182), and its number in a reply (R185). -/
def Stage.bit : Stage → Nat
  | .free => 0
  | .booked => 1
  | .engaged => 2
  | .metering => 3
  | .suspended => 4
  | .stopped => 5
  | .filing => 6

/-- The stage notice of a slot (R5). -/
def stageKind : SlotId → NoticeKind
  | .a => .stageA
  | .b => .stageB
  | .c => .stageC

/-- The stage notice for the stage entered goes to a port whose stage-notice mask includes it (R5, R181). -/
def Port.stageEntered (x : Port) (sl : SlotId) (st : Stage) : Port :=
  if x.stageMask.getLsbD st.bit then x.add (stageKind sl) else x

/-- The stage notice for the stage entered goes to every port whose mask includes it. -/
def Ports.stageEntered (q : Ports) (sl : SlotId) (st : Stage) : Ports :=
  ⟨q.console.stageEntered sl st, q.payment.stageEntered sl st, q.fleet.stageEntered sl st⟩

/-! ### The target of the front lamps -/

/-- The full level: 15 by day, the sign night level by night (R136). -/
def State.fullLevel (s : State) : Nat := if s.sign.night then s.tariffs.config.nightLevel else 15

/-- VACANT is called for under AUTO (R133). -/
def vacantWanted (pooling : Bool) (hires : HireTable) : Bool :=
  decide (hires.occupied < 3) && (pooling || hires.allFree)

/-- The target of the exclusive group (R133). -/
def groupTarget (shift : ShiftState) (ov : Override) (pooling : Bool) (hires : HireTable) : Option GroupLamp :=
  match shift, ov with
  | .closed, _ => none
  | .closing, _ => some .offDuty
  | .opened, .offDuty => some .offDuty
  | .opened, .full => some .hired
  | .opened, .auto => if vacantWanted pooling hires then some .vacant else some .hired

/-- The target with SHARE (R134). -/
def signTarget (shift : ShiftState) (ov : Override) (pooling : Bool) (hires : HireTable) : Target :=
  let g := groupTarget shift ov pooling hires
  ⟨g, g == some .vacant && pooling && decide (0 < hires.occupied)⟩

/-- The target that the state calls for. -/
def State.derivedTarget (s : State) : Target :=
  signTarget s.shift.state s.sign.override s.shift.pooling s.hires

/-- The goal of a front lamp: the full level in the target, 0 outside it (R134). -/
def goalOf (lit : Bool) (full : Nat) : Nat := if lit then full else 0

/-- The front lamps with the goals of a target; levels, flags, counts and the ALARM lamp are left (R134). -/
def Lamps.aim (l : Lamps) (t : Target) (full : Nat) : Lamps :=
  { l with
    vacant := { l.vacant with goal := goalOf (t.group == some .vacant) full }
    hired := { l.hired with goal := goalOf (t.group == some .hired) full }
    offDuty := { l.offDuty with goal := goalOf (t.group == some .offDuty) full }
    share := { l.share with goal := goalOf t.share full } }

/-- The sign with a target and its goals; the goals are set aside while a test runs (R134, R143). -/
def Sign.aim (x : Sign) (t : Target) (full : Nat) : Sign :=
  if x.test.isSome then { x with target := t } else { x with target := t, lamps := x.lamps.aim t full }

/-- The derivation made afresh; one that finds the same target changes nothing (R133). -/
def State.rederive (s : State) : State :=
  if s.derivedTarget = s.sign.target then s else { s with sign := s.sign.aim s.derivedTarget s.fullLevel }

/-- The ALARM lamp set to a level at once; its own step of a sign test holds it at 15 (R139, R143). Its goal is the level it is set
to (log entry 10, DEDUCED). -/
def Sign.alarmLevel (x : Sign) (level : Nat) : Sign :=
  match x.test with
  | some ⟨.alarm, _⟩ => x
  | _ => { x with lamps := { x.lamps with alarm := { x.lamps.alarm with goal := level, level := level } } }

/-- The event of a new full level: every front lamp in the target takes it as its goal, and the ALARM lamp takes it at once in an
ON phase (R136, R139). The full level is read from the state as it now stands. -/
def State.fullLevelChanged (s : State) : State :=
  let x := s.sign.aim s.sign.target s.fullLevel
  match x.flash with
  | some ⟨true, _⟩ => { s with sign := x.alarmLevel s.fullLevel }
  | _ => { s with sign := x }

/-- The stage of a slot changes to the stage of `h`: the record is written, the stage notice is raised and the target derived
afresh (R5). -/
def State.enterStage (s : State) (sl : SlotId) (h : Hire) : State :=
  let t := s.putHire sl h
  { t with ports := t.ports.stageEntered sl h.stage }.rederive

end Sys2Proof.Machine
end

