-- ==== Sys2Proof/Machine/Frames.lean ====
section
/-! DEFINITION. Frames, replies and refusal frames (R175 to R178), the catalogue of request kinds and the ports they are offered on
(R180), and the admission of a request frame to its owner. -/

namespace Sys2Proof.Machine

/-! ### The catalogue -/

/-- The request kinds, numbered from 1 in this order (R180). -/
inductive Kind where
  | openShift
  | closeShift
  | setPooling
  | readShift
  | latchCounters
  | readCounter
  | book
  | cancelBooking
  | startHire
  | suspend
  | resume
  | stopHire
  | addExtra
  | removeExtra
  | closeUnpaid
  | readHire
  | claim
  | release
  | beginPayment
  | paymentResult
  | reverse
  | postCash
  | load
  | compare
  | activate
  | readTariff
  | setConfig
  | setClock
  | readJournal
  | ackJournal
  | readUnfiled
  | ackUnfiled
  | signOverride
  | signTest
  | signClear
  | setTalkMode
  | setVolume
  | readIntercom
  | intercomClear
  | postPrompt
  | setMonitor
  | alarmStandDown
  | readAlarmLog
  | clearPart
  | setIndicators
  | readIndicators
  | ackNotices
  | setNoticeMask
  | setStageMask
  | null
  deriving DecidableEq, Repr

/-- The catalogue in order (R180). -/
def Kind.all : List Kind :=
  [.openShift, .closeShift, .setPooling, .readShift, .latchCounters, .readCounter, .book, .cancelBooking, .startHire, .suspend,
   .resume, .stopHire, .addExtra, .removeExtra, .closeUnpaid, .readHire, .claim, .release, .beginPayment, .paymentResult,
   .reverse, .postCash, .load, .compare, .activate, .readTariff, .setConfig, .setClock, .readJournal, .ackJournal,
   .readUnfiled, .ackUnfiled, .signOverride, .signTest, .signClear, .setTalkMode, .setVolume, .readIntercom, .intercomClear,
   .postPrompt] ++
  [.setMonitor, .alarmStandDown, .readAlarmLog, .clearPart, .setIndicators, .readIndicators, .ackNotices, .setNoticeMask,
   .setStageMask, .null]

/-- The kind byte of a request kind (R180). -/
def Kind.byte : Kind → Byte
  | .openShift => 1
  | .closeShift => 2
  | .setPooling => 3
  | .readShift => 4
  | .latchCounters => 5
  | .readCounter => 6
  | .book => 7
  | .cancelBooking => 8
  | .startHire => 9
  | .suspend => 10
  | .resume => 11
  | .stopHire => 12
  | .addExtra => 13
  | .removeExtra => 14
  | .closeUnpaid => 15
  | .readHire => 16
  | .claim => 17
  | .release => 18
  | .beginPayment => 19
  | .paymentResult => 20
  | .reverse => 21
  | .postCash => 22
  | .load => 23
  | .compare => 24
  | .activate => 25
  | .readTariff => 26
  | .setConfig => 27
  | .setClock => 28
  | .readJournal => 29
  | .ackJournal => 30
  | .readUnfiled => 31
  | .ackUnfiled => 32
  | .signOverride => 33
  | .signTest => 34
  | .signClear => 35
  | .setTalkMode => 36
  | .setVolume => 37
  | .readIntercom => 38
  | .intercomClear => 39
  | .postPrompt => 40
  | .setMonitor => 41
  | .alarmStandDown => 42
  | .readAlarmLog => 43
  | .clearPart => 44
  | .setIndicators => 45
  | .readIndicators => 46
  | .ackNotices => 47
  | .setNoticeMask => 48
  | .setStageMask => 49
  | .null => 50

/-- The request kind of a kind byte, none outside the catalogue. -/
def kindOf (b : Byte) : Option Kind := Kind.all.find? (fun k => k.byte == b)

/-- Offered on the Console, Payment and Fleet ports (R180). -/
def Kind.offers : Kind → Bool × Bool × Bool
  | .openShift => (true, false, false)
  | .closeShift => (true, false, true)
  | .setPooling => (false, false, true)
  | .readShift => (true, false, true)
  | .latchCounters => (true, false, true)
  | .readCounter => (true, false, true)
  | .book => (false, false, true)
  | .cancelBooking => (false, false, true)
  | .startHire => (true, false, false)
  | .suspend => (true, false, false)
  | .resume => (true, false, false)
  | .stopHire => (true, false, false)
  | .addExtra => (true, false, false)
  | .removeExtra => (true, false, false)
  | .closeUnpaid => (true, false, false)
  | .readHire => (true, true, true)
  | .claim => (false, true, true)
  | .release => (false, true, true)
  | .beginPayment => (false, true, true)
  | .paymentResult => (false, true, true)
  | .reverse => (false, true, true)
  | .postCash => (true, false, false)
  | .load => (false, false, true)
  | .compare => (false, false, true)
  | .activate => (false, false, true)
  | .readTariff => (false, false, true)
  | .setConfig => (false, false, true)
  | .setClock => (false, false, true)
  | .readJournal => (false, false, true)
  | .ackJournal => (false, false, true)
  | .readUnfiled => (false, false, true)
  | .ackUnfiled => (false, false, true)
  | .signOverride => (true, false, false)
  | .signTest => (false, false, true)
  | .signClear => (false, false, true)
  | .setTalkMode => (true, false, false)
  | .setVolume => (true, false, false)
  | .readIntercom => (true, false, false)
  | .intercomClear => (true, false, true)
  | .postPrompt => (false, true, false)
  | .setMonitor => (false, false, true)
  | .alarmStandDown => (false, false, true)
  | .readAlarmLog => (false, false, true)
  | .clearPart => (false, false, true)
  | .setIndicators => (false, false, true)
  | .readIndicators => (true, false, false)
  | .ackNotices => (true, true, true)
  | .setNoticeMask => (true, true, true)
  | .setStageMask => (true, true, true)
  | .null => (true, true, true)

/-- A kind is offered on a port (R180). -/
def Kind.offered (k : Kind) (p : PortId) : Bool :=
  match p with
  | .console => k.offers.1
  | .payment => k.offers.2.1
  | .fleet => k.offers.2.2

/-! ### Frames -/

/-- The flags of a frame that is not the last of its reply: REPLY. -/
def flagsReply : Byte := 1

/-- REPLY and FINAL. -/
def flagsFinal : Byte := 3

/-- REPLY, FINAL and FAULT. -/
def flagsFault : Byte := 7

/-- The bytes of a frame as they are shifted out, check word last (10_ports, Frame). -/
def Frame.bytes (f : Frame) : List Byte :=
  let body := f.kind :: f.tag :: f.flags :: BitVec.ofNat 8 f.payload.length :: f.payload
  body ++ be2 (crc16 body).toNat

/-- The empty frame (R174); its tag, which the rule does not give, is 0 (log entry 49, DESIGN CHOICE). -/
def emptyFrame : Frame := ⟨0, 0, flagsFinal, []⟩

/-- A refusal frame (R176). -/
def refusalFrame (tag : Byte) (c : Code) : Frame := ⟨0, tag, flagsFault, [c.byte]⟩

/-! ### Replies -/

/-- What an owner answers: the payloads of the reply's frames in order, and whether the FAULT flag is set (R177). -/
structure Reply where
  fault    : Bool
  payloads : List (List Byte)
  deriving DecidableEq, Repr

/-- A one-frame reply: a result code and the items after it (R185). -/
def Reply.of (c : Code) (items : List Byte) : Reply := ⟨false, [c.byte :: items]⟩

/-- A refusal by an owner: the result code alone (R185). -/
def Reply.refuse (c : Code) : Reply := .of c []

/-- The frames of a reply: FINAL on the last alone (R177). -/
def replyFrames (kind tag : Byte) (fault : Bool) : List (List Byte) → List Frame
  | [] => []
  | [last] => [⟨kind, tag, if fault then flagsFault else flagsFinal, last⟩]
  | x :: rest => ⟨kind, tag, flagsReply, x⟩ :: replyFrames kind tag fault rest

/-- The outstanding flag: the reply store holds a frame not yet read (R173). -/
def Port.outstanding (x : Port) : Bool := decide (x.readCount < x.reply.length)

/-- A reply placed in the reply store; its request frame is complete, so the receive state is IDLE, and the last frame read is forgotten
(R174, R177). -/
def Port.answer (x : Port) (kind tag : Byte) (r : Reply) : Port :=
  { x with receive := none, reply := replyFrames kind tag r.fault r.payloads, readCount := 0, lastRead := none }

/-- A refusal frame stored, replacing an unread one (R176); the frame it answers is complete or abandoned, so the receive state is IDLE
(R174, R175). -/
def Port.refuse (x : Port) (tag : Byte) (c : Code) : Port := { x with receive := none, refusal := some (refusalFrame tag c) }

/-- NULL taken: replies, refusal frame and last frame read are discarded, and the WRITE-START that began it has abandoned any frame in
progress (R178). -/
def Port.discard (x : Port) : Port := { x with receive := none, reply := [], readCount := 0, refusal := none, lastRead := none }

/-- A reply given on a port. -/
def State.answer (s : State) (p : PortId) (kind tag : Byte) (r : Reply) : State :=
  s.putPort p ((s.port p).answer kind tag r)

/-- A refusal frame given on a port. -/
def State.refuse (s : State) (p : PortId) (tag : Byte) (c : Code) : State := s.putPort p ((s.port p).refuse tag c)

/-- An open chain is closed; blocks already written stand (R63). -/
def State.closeChain (s : State) : State := { s with tariffs := { s.tariffs with chain := Chain.cleared } }

/-- NULL is taken on a port; on the Fleet port it closes an open chain (R178). -/
def State.takeNull (s : State) (p : PortId) : State :=
  let t := s.putPort p (s.port p).discard
  if p = .fleet then t.closeChain else t

/-! ### Admission of a request -/

/-- An owner's work on a request: the state after it and its reply (R177). -/
abbrev Owner := State → State × Reply

/-- A request whose owner refuses it changes nothing (R179). -/
def refusedBy (c : Code) : Owner := fun s => (s, .refuse c)

/-- An owner's answer after a table of checks: the code of the first check that fails, or the work (R179). -/
def checked (checks : List (Bool × Code)) (work : Owner) : Owner := fun s =>
  match firstRefusal checks with
  | some c => (s, .refuse c)
  | none => work s

/-- Steps 1 to 6 of R175 for a request frame of sound check word, other than NULL: BUSY while the power fails or a reply is
outstanding, NOT_PERMITTED for a kind not offered on the port, and otherwise the owner's work and its reply. A frozen part takes no
event (R190). -/
def admitRequest (p : PortId) (kind tag : Byte) (offered : Bool) (owner : Owner) (s : State) : State :=
  match s.power with
  | .frozen => s
  | .failing => s.refuse p tag .busy
  | .running =>
    if (s.port p).outstanding then s.refuse p tag .busy
    else if offered then
      let (t, r) := owner s
      t.answer p kind tag r
    else s.answer p kind tag (.refuse .notPermitted)

/-- Steps 1 and 2 of R175 for NULL. -/
def admitNull (p : PortId) (tag : Byte) (s : State) : State :=
  match s.power with
  | .frozen => s
  | .failing => s.refuse p tag .busy
  | .running => s.takeNull p

/-- The calibration seal line as it reads while a frame arrives (R60), held with the other lines (log entry 5, DESIGN CHOICE). -/
def State.sampleSeal (s : State) (sealed : Bool) : State := { s with pins := { s.pins with sealed := sealed } }

/-- A command on a port, which a frozen part does not take (R190). -/
def unlessFrozen (f : State → State) (s : State) : State := if s.power = .frozen then s else f s

/-- The next state of a request of a kind, taken on a port. -/
def request (p : PortId) (k : Kind) (tag : Byte) (owner : Owner) (s : State) : Host.Outcome State Fault Refusal :=
  .next (admitRequest p k.byte tag (k.offered p) owner s)

end Sys2Proof.Machine
end

