-- ==== Sys2Proof/Machine/Clock.lean ====
section
/-! DEFINITION. The real-time clock's calendar (R187) and the calendar's choice of a tariff (R56). -/

namespace Sys2Proof.Machine

/-- Leap years of 2000..2099 (R187). -/
def isLeap (year : Nat) : Bool := year % 4 == 0

/-- The days of a month (R187). -/
def daysInMonth (year month : Nat) : Nat :=
  match month with
  | 1 => 31
  | 2 => if isLeap year then 29 else 28
  | 3 => 31
  | 4 => 30
  | 5 => 31
  | 6 => 30
  | 7 => 31
  | 8 => 31
  | 9 => 30
  | 10 => 31
  | 11 => 30
  | 12 => 31
  | _ => 0

/-- The next day's date and weekday, the time of day kept; after 31 December 2099 comes Saturday 1 January 2000 (R187). -/
def ClockTime.nextDay (t : ClockTime) : ClockTime :=
  if t.day < daysInMonth t.year t.month then { t with day := t.day + 1, weekday := t.weekday % 7 + 1 }
  else if t.month < 12 then { t with day := 1, month := t.month + 1, weekday := t.weekday % 7 + 1 }
  else if t.year < 2099 then { t with day := 1, month := 1, year := t.year + 1, weekday := t.weekday % 7 + 1 }
  else { t with day := 1, month := 1, year := 2000, weekday := 6 }

/-- n days on. -/
def ClockTime.daysOn : Nat → ClockTime → ClockTime
  | 0, t => t
  | n + 1, t => ClockTime.daysOn n t.nextDay

/-- The second of the day. -/
def ClockTime.secondOfDay (t : ClockTime) : Nat := t.hour * 3600 + t.minute * 60 + t.second

/-- The minute of the day, 0..1439 (R56). -/
def ClockTime.minuteOfDay (t : ClockTime) : Nat := t.hour * 60 + t.minute

/-- The same date at a second of the day. -/
def ClockTime.atSecond (t : ClockTime) (n : Nat) : ClockTime :=
  { t with hour := n / 3600, minute := n / 60 % 60, second := n % 60 }

/-- The clock time n seconds on (R7, R187). -/
def ClockTime.plus (t : ClockTime) (n : Nat) : ClockTime :=
  (t.daysOn ((t.secondOfDay + n) / 86400)).atSecond ((t.secondOfDay + n) % 86400)

/-- The last second of the clock's range (R187). -/
def ClockTime.isLast (t : ClockTime) : Bool :=
  t.year == 2099 && t.month == 12 && t.day == 31 && t.secondOfDay == 86399

/-- Days from 1 January of a year to the first of a month. -/
def daysBeforeMonth (year : Nat) : Nat → Nat
  | 0 => 0
  | m + 1 => daysBeforeMonth year m + daysInMonth year m

/-- Days from 1 January 2000 to 1 January of a year. -/
def daysBeforeYear (year : Nat) : Nat := (year - 2000) * 365 + (year - 2000 + 3) / 4

/-- Days from 1 January 2000 to a date. -/
def ClockTime.dayNumber (t : ClockTime) : Nat :=
  daysBeforeYear t.year + daysBeforeMonth t.year t.month + (t.day - 1)

/-- Seconds from 1 January 2000, 00:00:00. -/
def ClockTime.toSeconds (t : ClockTime) : Nat := t.dayNumber * 86400 + t.secondOfDay

/-- The clock `now` has reached or passed `t` (R8). -/
def ClockTime.reached (now t : ClockTime) : Bool := t.toSeconds ≤ now.toSeconds

/-- Two clock times lie within 120 seconds of each other, either way (R187): the distance of the two dates, which does not reach across
the wrap from 2099 to 2000 (log entry 50, DESIGN CHOICE). -/
def ClockTime.near (x y : ClockTime) : Bool :=
  x.toSeconds ≤ y.toSeconds + 120 && y.toSeconds ≤ x.toSeconds + 120

/-- Every field lies in its range, the day exists in its month, and the weekday agrees with the date (R187); 1 January 2000 is a
Saturday. -/
def ClockTime.valid (t : ClockTime) : Bool :=
  2000 ≤ t.year && t.year ≤ 2099 && 1 ≤ t.month && t.month ≤ 12 && 1 ≤ t.day && t.day ≤ daysInMonth t.year t.month
    && t.hour ≤ 23 && t.minute ≤ 59 && t.second ≤ 59 && t.weekday == (t.dayNumber + 5) % 7 + 1

/-- Each new second (R187): the clock carries, and at the wrap past 2099 the status becomes UNSET. -/
def State.secondOn (s : State) : State :=
  { s with
    clock := s.clock.plus 1
    clockStatus := if s.clock.isLast then .unset else s.clockStatus }

/-! ### Calendar selection (R56) -/

/-- An entry applies on a weekday, 1..7. -/
def CalendarEntry.on (e : CalendarEntry) (weekday : Nat) : Bool := e.weekdays.getLsbD (weekday - 1)

/-- The better of the best so far and the next entry in index order: the greatest start minute, ties to the lowest index. -/
def betterEntry (test : CalendarEntry → Bool) (best : Option CalendarEntry) (e : Option CalendarEntry) : Option CalendarEntry :=
  match e with
  | none => best
  | some x =>
    if test x then
      match best with
      | none => some x
      | some y => if y.start < x.start then some x else some y
    else best

/-- The chosen entry among those that satisfy a test. -/
def bestEntry (cal : List (Option CalendarEntry)) (test : CalendarEntry → Bool) : Option CalendarEntry :=
  cal.foldl (betterEntry test) none

/-- The weekday n days before a weekday. -/
def weekdayBefore (weekday n : Nat) : Nat := (weekday + 6 + 7 * n - n) % 7 + 1

/-- Step 3 of R56 repeated: today's weekday, the days back tried so far, the days still to try. -/
def searchBack (cal : List (Option CalendarEntry)) (today : Nat) : Nat → Nat → Option CalendarEntry
  | _, 0 => none
  | back, n + 1 =>
    match bestEntry cal (fun e => e.on (weekdayBefore today (back + 1))) with
    | some e => some e
    | none => searchBack cal today (back + 1) n

/-- The tariff the calendar chooses (R56): today up to this minute, then up to seven days back, then tariff 1. -/
def calendarChoice (cal : List (Option CalendarEntry)) (now : ClockTime) : Nat :=
  match bestEntry cal (fun e => e.on now.weekday && e.start ≤ now.minuteOfDay) with
  | some e => e.tariff
  | none =>
    match searchBack cal now.weekday 0 7 with
    | some e => e.tariff
    | none => 1

end Sys2Proof.Machine
end

