-- ==== Sys2Proof/Machine/Operands.lean ====
section
/-! DEFINITION. The fields of request payloads: where they stand and which values their encodings list (R185, 10_ports Layouts). -/

namespace Sys2Proof.Machine

/-! ### Fields of a payload -/

/-- The byte at a place of a payload. -/
def byteAt (pl : List Byte) (i : Nat) : Byte := pl.getD i 0

/-- The number spelled by n bytes from a place. -/
def numAt (pl : List Byte) (i n : Nat) : Nat := beNat ((pl.drop i).take n)

/-- The two-byte field at a place. -/
def halfAt (pl : List Byte) (i : Nat) : Half := BitVec.ofNat 16 (numAt pl i 2)

/-- The four-byte field at a place. -/
def wordAt (pl : List Byte) (i : Nat) : Word := BitVec.ofNat 32 (numAt pl i 4)

/-- The SET_CONFIG payload (R185). -/
def configFieldsAt (pl : List Byte) : ConfigFields where
  presence := byteAt pl 0
  k := halfAt pl 1
  claimTimeout := halfAt pl 3
  paymentTimeout := halfAt pl 5
  ceiling := wordAt pl 7
  pooling := byteAt pl 11
  lowWater := halfAt pl 12
  depth := byteAt pl 14
  nightLevel := byteAt pl 15

/-- A clock time (10_ports Layouts). -/
def clockFieldsAt (pl : List Byte) : ClockFields where
  year := halfAt pl 0
  month := byteAt pl 2
  day := byteAt pl 3
  weekday := byteAt pl 4
  hour := byteAt pl 5
  minute := byteAt pl 6
  second := byteAt pl 7

/-- The PAYMENT_RESULT payload (R185). -/
def resultFieldsAt (pl : List Byte) : ResultFields where
  slot := byteAt pl 0
  hire := halfAt pl 1
  entry := byteAt pl 3
  result := byteAt pl 4
  route := byteAt pl 5
  reference := BitVec.ofNat 96 (numAt pl 6 12)
  method := byteAt pl 18
  amount := wordAt pl 19
  tip := wordAt pl 23

/-! ### Values of one-byte fields; none for a value outside those the encoding lists -/

/-- 0 off, 1 on (R185). -/
def onOff (b : Byte) : Option Bool := if b = 0 then some false else if b = 1 then some true else none

/-- A payment method: 0 CARD, 1 CASH, 2 ACCOUNT. -/
def methodOf (b : Byte) : Option PayMethod :=
  if b = 0 then some .card else if b = 1 then some .cash else if b = 2 then some .account else none

/-- A payment route: 0 ONLINE, 1 OFFLINE. -/
def routeOf (b : Byte) : Option Route := if b = 0 then some .online else if b = 1 then some .offline else none

/-- A payment result: 0 APPROVED (true), 1 DECLINED (false). -/
def resultOf (b : Byte) : Option Bool := if b = 0 then some true else if b = 1 then some false else none

/-- An override: 0 AUTO, 1 OFF_DUTY, 2 FULL; 3 is REPORT and no override. -/
def overrideOf (b : Byte) : Option Override :=
  if b = 0 then some .auto else if b = 1 then some .offDuty else if b = 2 then some .full else none

/-- A talk mode: 0 OFF, 1 DUPLEX, 2 PTT, 3 PRIVATE. -/
def talkModeOf (b : Byte) : Option TalkMode :=
  if b = 0 then some .off else if b = 1 then some .duplex else if b = 2 then some .ptt
  else if b = 3 then some .privateTalk else none

/-- A path: 0 FR, 1 RF. -/
def pathOf (b : Byte) : Option PathId := if b = 0 then some .fr else if b = 1 then some .rf else none

/-- A monitor select: 0 NONE, 1 CABIN, 2 FRONT, 3 MIX. -/
def monitorOf (b : Byte) : Option MonitorSelect :=
  if b = 0 then some .off else if b = 1 then some .cabin else if b = 2 then some .front
  else if b = 3 then some .mix else none

/-- A clock time read from its fields. -/
def clockTimeOf (f : ClockFields) : ClockTime :=
  ⟨f.year.toNat, f.month.toNat, f.day.toNat, f.weekday.toNat, f.hour.toNat, f.minute.toNat, f.second.toNat⟩

/-! ### Chain blocks (10_ports, Chain blocks and the tariff record) -/

/-- A LOAD or COMPARE block that is whole and whose fields lie in range (R64). -/
inductive Block where
  | tariff (id : Nat) (t : Tariff)
  | calendar (index : Nat) (e : CalendarEntry)
  | extra (id : Nat) (e : ExtraEntry)
  | withdrawTariff (id : Nat)
  | withdrawCalendar (index : Nat)
  | withdrawExtra (id : Nat)
  | clearStaging
  deriving DecidableEq, Repr

/-- A band mode: 0 COMBINED, 1 PARALLEL, 2 DISTANCE, 3 TIME. -/
def bandModeOf (b : Byte) : Option BandMode :=
  if b = 0 then some .combined else if b = 1 then some .parallel else if b = 2 then some .distance
  else if b = 3 then some .time else none

/-- A band from its eleven bytes, its mode listed. -/
def bandAt (pl : List Byte) : Option Band :=
  (bandModeOf (byteAt pl 10)).map fun m => ⟨numAt pl 0 4, numAt pl 4 2, numAt pl 6 2, numAt pl 8 2, m⟩

/-- n bands in turn. -/
def bandsAt : Nat → List Byte → Option (List Band)
  | 0, _ => some []
  | n + 1, pl => do
    let b ← bandAt pl
    let rest ← bandsAt n (pl.drop 11)
    some (b :: rest)

/-- The fields of a band but its start lie in range (R53). -/
def Band.inRange (b : Band) : Bool :=
  1 ≤ b.step && b.step ≤ 5000 && 1 ≤ b.time && b.time ≤ 6000 && 1 ≤ b.amount && b.amount ≤ 9999

/-- Start distances: each later band greater than the one before, and at most 500,000 m (R53). -/
def startsRise : Nat → List Band → Bool
  | _, [] => true
  | before, b :: rest => before < b.start && b.start ≤ 500000 && startsRise b.start rest

/-- The bands lie in range: one to four, the first at 0 (R53). -/
def bandsInRange : List Band → Bool
  | [] => false
  | b :: rest => decide (rest.length ≤ 3) && b.start == 0 && startsRise 0 rest && (b :: rest).all Band.inRange

/-- Every field of a tariff record lies in its range (R53). -/
def Tariff.inRange (t : Tariff) : Bool :=
  t.flagFall ≤ 99999 && t.d0 ≤ 20000 && t.t0 ≤ 36000 && 1 ≤ t.s2 && t.s2 ≤ 100 && 1 ≤ t.s3 && t.s3 ≤ 100
    && bandsInRange t.bands

/-- A tariff record from its content, its kind, manual and mode values listed. -/
def tariffAt (pl : List Byte) : Option Tariff := do
  let kind ← if byteAt pl 1 = 0 then some TariffKind.metered else if byteAt pl 1 = 1 then some .fixed else none
  let manual ← onOff (byteAt pl 2)
  let bands ← bandsAt (byteAt pl 13).toNat (pl.drop 14)
  some ⟨kind, manual, numAt pl 3 4, numAt pl 7 2, numAt pl 9 2, (byteAt pl 11).toNat, (byteAt pl 12).toNat, bands⟩

/-- An id of a tariff or extras place. -/
def placeId (n : Nat) : Bool := 1 ≤ n && n ≤ 8

/-- A calendar entry in range: bit 7 of the weekday byte clear, at least one day, a minute of the day, a tariff id (R55). -/
def calendarAt (pl : List Byte) : Option CalendarEntry :=
  let days := byteAt pl 1
  let e : CalendarEntry := ⟨days.setWidth 7, numAt pl 2 2, (byteAt pl 4).toNat⟩
  if !days.getLsbD 7 && e.weekdays != 0 && e.start ≤ 1439 && placeId e.tariff then some e else none

/-- An extras entry in range (R58). -/
def extraAt (pl : List Byte) : Option ExtraEntry :=
  match onOff (byteAt pl 6) with
  | some after =>
    let e : ExtraEntry := ⟨numAt pl 1 4, (byteAt pl 5).toNat, after⟩
    if e.amount ≤ 50000 && 1 ≤ e.maxCount && e.maxCount ≤ 9 then some e else none
  | none => none

/-- A valid record as a block, or RANGE. -/
def blockOf {α : Type} (make : α → Block) (x : Option α) : Except Code Block :=
  match x with
  | some v => .ok (make v)
  | none => .error .range

/-- A block read and checked (R53, R55, R58, R64): a malformed length or an unknown type is RANGE, a place outside its range is
NO_SUCH, and a field out of range is RANGE. -/
def readBlock (pl : List Byte) : Except Code Block :=
  let content := pl.drop 2
  let id := (byteAt content 0).toNat
  let size := content.length
  match (byteAt pl 0).toNat with
  | 1 =>
    if size < 14 || size != 14 + 11 * (byteAt content 13).toNat then .error .range
    else if !placeId id then .error .noSuch
    else blockOf (.tariff id) ((tariffAt content).filter Tariff.inRange)
  | 2 => if size != 5 then .error .range else if 31 < id then .error .noSuch else blockOf (.calendar id) (calendarAt content)
  | 3 => if size != 7 then .error .range else if !placeId id then .error .noSuch else blockOf (.extra id) (extraAt content)
  | 4 => if size != 1 then .error .range else if !placeId id then .error .noSuch else .ok (.withdrawTariff id)
  | 5 => if size != 1 then .error .range else if 31 < id then .error .noSuch else .ok (.withdrawCalendar id)
  | 6 => if size != 1 then .error .range else if !placeId id then .error .noSuch else .ok (.withdrawExtra id)
  | 7 => if size != 0 || pl.length < 2 then .error .range else .ok .clearStaging
  | _ => .error .range

/-- The more-follows flag of a block; clear in one too short to carry its flags byte (R175). Bits 2 to 7 of the flags byte, which the
layout does not name, are not looked at (log entry 33, DESIGN CHOICE). -/
def moreFollows (pl : List Byte) : Bool := (byteAt pl 1).getLsbD 0

/-- The stop-on-error flag of a block. -/
def stopOnError (pl : List Byte) : Bool := (byteAt pl 1).getLsbD 1

end Sys2Proof.Machine
end

