-- ==== Sys2Proof/WellFormed.lean ====
section
/-! DEFINITION. Which commands a sender can send at all: the bounds that the operand types do not already keep. -/

namespace Sys2Proof

/-- The longest payload a frame may carry (R175, 10_ports Frame: payload length 0..240). -/
def maxPayload : Nat := 240

/-- The pages of the journal (R118). -/
def journalPages : Nat := 256

/-- Page numbers in rising order, each on the journal (R130: "in order of page number"). -/
def pagesRising (ps : List Nat) : Bool :=
  decide (ps.Pairwise (· < ·)) && ps.all (· < journalPages)

/-- The operand bounds of one command. -/
def Instr.wellFormed : Instr → Bool
  | .load _ _ payload => payload.length ≤ maxPayload
  | .compare _ _ payload => payload.length ≤ maxPayload
  | .paymentExpired _ entry _ => 1 ≤ entry && entry ≤ 4
  | .journalRecoveryEnd failed => pagesRising failed
  | .freezeExit u => pagesRising u.erased
  | .powerOn u => pagesRising u.erased
  | _ => true

end Sys2Proof
end

