-- ==== Sys2Proof/Machine/JournalOps.lean ====
section
/-! DEFINITION. The Journal's operations: its slots, free room, hand-over, filing, completion, retirement and low mark (R116 to
R125), and the accounts a filing completion makes (R23, R102, R103, R106, R108, R109). -/

namespace Sys2Proof.Machine

/-! ### Slots of the store -/

/-- The slot number of a place. -/
def Place.index (p : Place) : Nat := 16 * p.page + p.slot

/-- What a slot holds, none when it is empty. -/
def slotRead : JournalStore → Nat → Option SlotContent
  | [], _ => none
  | (i, c) :: rest, n => if i = n then some c else slotRead rest n

/-- A slot programmed, the list kept in rising order of slot number. -/
def slotWrite : JournalStore → Nat → SlotContent → JournalStore
  | [], n, c => [(n, c)]
  | (i, d) :: rest, n, c =>
    if n < i then (n, c) :: (i, d) :: rest
    else if i = n then (n, c) :: rest
    else (i, d) :: slotWrite rest n c

/-- The canonical form: slot numbers rise strictly. -/
def storeCanonical (st : JournalStore) : Prop := st.Pairwise (fun x y => x.1 < y.1)

/-- The canonical form and the bound of 4,096 slots, as a check. -/
def storeWf (st : JournalStore) : Bool :=
  decide (st.Pairwise (fun x y => x.1 < y.1)) && st.all (fun x => x.1 < 16 * journalPages)

/-- A slot content is a whole record beyond the acknowledged number (R117). -/
def SlotContent.unacked (acked : Nat) : SlotContent → Bool
  | .whole seq _ => acked < seq
  | .damaged => false

/-- The unacknowledged records, in slot order. -/
def unackedSlots (st : JournalStore) (acked : Nat) : JournalStore := st.filter (fun x => x.2.unacked acked)

/-! ### Room -/

/-- Writing is open: closed exactly in FAULT with cause RETIRED_LIST (R123). -/
def Journal.writingOpen (j : Journal) : Bool := j.state != .fault .retiredList

/-- The journal is in FAULT. -/
def Journal.inFault (j : Journal) : Bool := j.state != .normal

/-- A record whose room is kept by the reserve (R118). -/
def RecordBody.reserved : RecordBody → Bool
  | .hire _ => true
  | .shift _ _ _ _ => true
  | _ => false

/-- The unacknowledged records that lie in pages not retired. -/
def Journal.unackedLive (j : Journal) : Nat :=
  ((unackedSlots j.store j.acked).filter (fun x => !(j.retired.contains (x.1 / 16)))).length

/-- The queued records of kinds other than HIRE and SHIFT (R118). -/
def Journal.queuedOthers (j : Journal) : Nat := (j.queue.filter (fun r => !r.body.reserved)).length

/-- The free journal slots (R118): 16 for each page not retired, less the unacknowledged records there, less the queued records
of kinds other than HIRE and SHIFT; 0 while writing is closed. A retirement can bring it below 0. -/
def Journal.free (j : Journal) : Int :=
  if j.writingOpen then (16 * (journalPages - j.retired.length) : Nat) - (j.unackedLive : Int) - (j.queuedOthers : Int) else 0

/-- The free journal slots as a reply's two bytes carry them: 0 when they stand below 0 (log entry 39, DESIGN CHOICE). -/
def Journal.freeShown (j : Journal) : Nat := j.free.toNat

/-- The reserve (R118). -/
def State.reserve (s : State) : Nat := s.hires.occupied + (if s.shift.state = .closed then 0 else 1)

/-- The newest sequence number written (R117); 0 where the next number is 0, which only the free value past the last can make it (log
entries 1 and 48, DESIGN CHOICE). -/
def Journal.newest (j : Journal) : Nat := j.nextSeq - 1

/-- The slot at a place is free: its page is not retired and it holds no unacknowledged record (R118). -/
def Journal.slotFree (j : Journal) (p : Place) : Bool :=
  !(j.retired.contains p.page) &&
    (match slotRead j.store p.index with
      | some c => !(c.unacked j.acked)
      | none => true)

/-- The first page after `page` that is not retired, going round the circle, trying n pages. -/
def nextPage (retired : List Nat) : Nat → Nat → Nat
  | page, 0 => (page + 1) % journalPages
  | page, n + 1 =>
    if retired.contains ((page + 1) % journalPages) then nextPage retired ((page + 1) % journalPages) n
    else (page + 1) % journalPages

/-- Slot 0 of the next page that is not retired (R118, R122). -/
def freshPage (retired : List Nat) (page : Nat) : Place := ⟨nextPage retired page 255, 0⟩

/-- The place after a place (R118). -/
def Place.next (p : Place) (retired : List Nat) : Place :=
  if p.slot < 15 then ⟨p.page, p.slot + 1⟩ else freshPage retired p.page

/-! ### The low mark -/

/-- The low mark worked out afresh; JOURNAL_LOW when it is set from clear (R125). -/
def State.updateLow (s : State) : State :=
  let low := decide (s.journal.free < s.tariffs.config.lowWater)
  let t := { s with journal := { s.journal with low := low } }
  if low && !s.journal.low then t.notifyConsoleFleet .journalLow else t

/-- The low mark after an event under which the low-water level was `old` before: worked out afresh when the level has changed, and as it
stood when it has not (R61, R125). -/
def State.updateLowFrom (s : State) (old : Nat) : State := if s.tariffs.config.lowWater = old then s else s.updateLow

/-! ### Hand-over -/

/-- A record formed now (R116). -/
def State.formRecord (s : State) (b : RecordBody) : JournalRecord := ⟨s.shift.number, s.clock, b⟩

/-- The Journal accepts a record (R120): HIRE and SHIFT always, another kind when a journal slot is free (none is while writing is
closed) and no recovery runs (R130). -/
def State.acceptsRecord (s : State) (b : RecordBody) : Bool :=
  b.reserved || (decide (1 ≤ s.journal.free) && s.partClear != .recovering)

/-- A record joins the end of the filing queue, if it is accepted (R120). -/
def State.handOver (s : State) (b : RecordBody) : State :=
  if s.acceptsRecord b then
    { s with journal := { s.journal with queue := s.journal.queue ++ [s.formRecord b] } }.updateLow
  else s

/-! ### Totalizer writes -/

/-- A totalizer write begins with the working values as they stand; the count of metres restarts (R109). -/
def ShiftAccounting.beginTotals (x : ShiftAccounting) : ShiftAccounting :=
  { x with totalsWrite := some ⟨x.totals, 0⟩, remembered := false, gained := 0 }

/-- A totalizer write is asked for: it begins at once, or is remembered while one is in flight (R109). -/
def ShiftAccounting.askTotals (x : ShiftAccounting) : ShiftAccounting :=
  if x.totalsWrite.isSome then { x with remembered := true } else x.beginTotals

/-- A totalizer write is asked for. -/
def State.askTotals (s : State) : State := { s with shift := s.shift.askTotals }

/-- Whole metres drawn from the odometer remainder join total metres, and a write is asked for when 100 m have been gained since
the values were last handed to one (R48, R108, R109). A pulse's metres join at once: with k below 1,000 the write takes the total after
all of them and none of them counts toward the next 100 m (log entry 31, DESIGN CHOICE). -/
def ShiftAccounting.addOdometer (x : ShiftAccounting) (n : Nat) : ShiftAccounting :=
  let y := { x with totals := { x.totals with totalMetres := wrapAdd x.totals.totalMetres n }, gained := x.gained + n }
  if x.gained < 100 && 100 ≤ y.gained then y.askTotals else y

/-! ### Accounts of a filed hire -/

/-- The sum of a quantity over the entries that satisfy a test. -/
def sumWhere (f : Payment → Bool) (q : Payment → Nat) (ps : List Payment) : Nat := ((ps.filter f).map q).sum

/-- An APPROVED entry. -/
def Payment.isApproved (e : Payment) : Bool := e.state == .approved

/-- A PENDING entry. -/
def Payment.isPending (e : Payment) : Bool := e.state == .pending

/-- The amounts of the APPROVED entries of a method (R106). -/
def approvedBy (m : PayMethod) (ps : List Payment) : Nat :=
  sumWhere (fun e => e.isApproved && e.method == m) Payment.amount ps

/-- The amounts of the APPROVED CARD entries whose route is OFFLINE (R106). -/
def approvedOffline (ps : List Payment) : Nat :=
  sumWhere (fun e => e.isApproved && e.method == .card && e.route == some .offline) Payment.amount ps

/-- The tips of the APPROVED entries (R92, R116). -/
def approvedTips (ps : List Payment) : Nat := sumWhere Payment.isApproved Payment.tip ps

/-- A filed hire added into counters 1 to 3 and 5 to 12 (R106). -/
def ShiftAccounting.addFiled (x : ShiftAccounting) (h : Hire) : ShiftAccounting :=
  ((((((((((x.count .hiresFiled 1).count .hiresUnpaid (if h.outcome = some .unpaid then 1 else 0)).count .hiredMetres
    h.metres).count .steps h.steps).count .meteredTotal h.metered).count .extrasTotal h.extrasAmount).count .tipsTotal
    (approvedTips h.payments)).count .cardTotal (approvedBy .card h.payments)).count .cashTotal
    (approvedBy .cash h.payments)).count .accountTotal (approvedBy .account h.payments)).count .offlineCardTotal
    (approvedOffline h.payments)

/-- A filed hire added into the lifetime totalizers (R108). -/
def Totals.addFiled (t : Totals) (h : Hire) : Totals :=
  { t with
    hiredMetres := wrapAdd t.hiredMetres h.metres
    hires := wrapAdd t.hires 1
    steps := wrapAdd t.steps h.steps
    fare := wrapAdd t.fare (h.metered + h.extrasAmount) }

/-- A filed hire added to the shift counters and the totalizers at its completion (R106, R108). -/
def ShiftAccounting.fileHire (x : ShiftAccounting) (h : Hire) : ShiftAccounting :=
  { x.addFiled h with totals := x.totals.addFiled h }

/-! ### Completions -/

/-- The SHIFT record of the shift as it stands (R102). -/
def State.shiftBody (s : State) : RecordBody :=
  .shift (s.shift.driver.getD 0) (s.shift.openTime.getD s.clock) (s.shift.closeTime.getD s.clock) s.shift.counters

/-- The summary filing begins when the shift is CLOSING with every slot FREE and no summary in flight (R102). -/
def State.beginSummary (s : State) : State :=
  if s.shift.state = .closing ∧ s.shift.summary = false ∧ s.hires.allFree = true then
    { s with shift := { s.shift with summary := true } }.handOver s.shiftBody
  else s

/-- The filing of a HIRE record is complete (R23): accounts, slot FREE with its notice, a totalizer write (R109), the summary. -/
def State.completeHire (s : State) (sl : SlotId) : State :=
  let s1 := { s with shift := s.shift.fileHire (s.hire sl) }
  ((s1.enterStage sl Hire.cleared).askTotals).beginSummary

/-- The SHIFT record is filed and the close completes (R103). -/
def State.completeShift (s : State) : State :=
  let s1 := { s with shift := { s.shift with state := .closed, summary := false } }
  ((s1.notifyAll .shiftClosed).rederive).askTotals

/-- The completion of a filing reported to the block that handed the record over (R120). -/
def State.complete (s : State) (b : RecordBody) : State :=
  match b with
  | .hire r => s.completeHire r.slot
  | .shift _ _ _ _ => s.completeShift
  | .lateApproval _ _ _ _ _ _ => s
  | .activation _ => s
  | .retentionLost => s

/-! ### Filing -/

/-- The head of the queue finds no slot (R124): a HIRE or SHIFT record goes to the unfiled list and its filing is complete; another
is dropped. -/
def State.noSlot (s : State) (r : JournalRecord) (rest : List JournalRecord) : State :=
  let j := { s.journal with queue := rest }
  if r.body.reserved then
    ({ s with journal := { j with unfiled := j.unfiled ++ [r] } }.updateLow).complete r.body
  else { s with journal := j }.updateLow

/-- The record at the head of the queue begins its filing when none is in flight (R121); one that finds no slot ends at once and the
next follows, at most n times. -/
def State.beginFiling : Nat → State → State
  | 0, s => s
  | n + 1, s =>
    match s.journal.inFlight, s.journal.queue with
    | none, r :: rest =>
      if s.journal.writingOpen && s.journal.slotFree s.journal.writer then
        { s with journal := { s.journal with inFlight := some ⟨s.journal.nextSeq, s.journal.writer⟩ } }
      else State.beginFiling n (s.noSlot r rest)
    | _, _ => s

/-- Filing goes on: each completion can hand over at most the one SHIFT record, so the bound is enough. -/
def State.fileOn (s : State) : State := s.beginFiling (s.journal.queue.length + 2)

/-- The next sequence number after one is used (R117; past the last a free value, log entry 1). -/
def sequenceAfter (seq draws : Nat) : Nat :=
  if seq < 4294967295 then seq + 1 else (Config.sequenceAfterLast draws).toNat

/-- A verify passes (R121): the slot holds the record, the number rises, the writer moves on and the filing completes. -/
def State.verifyPass (s : State) : State :=
  match s.journal.inFlight, s.journal.queue with
  | some f, r :: rest =>
    let j := s.journal
    let s1 := { s with
      journal := { j with
        store := slotWrite j.store f.place.index (.whole f.seq r)
        nextSeq := sequenceAfter f.seq s.draws
        writer := f.place.next j.retired
        queue := rest
        inFlight := none }
      draws := if f.seq < 4294967295 then s.draws else s.draws + 1 }
    ((s1.updateLow).complete r.body).fileOn
  | _, _ => s

/-- The page of a failed slot joins the retired list, or, when the list is full, writing is closed (R122); the failed slot reads
back damaged (log entry 17, DEDUCED). -/
def Journal.retire (j : Journal) (f : Filing) : Journal :=
  let retired := if j.retired.length < Config.retiredPlaces then j.retired ++ [f.place.page] else j.retired
  { j with
    store := slotWrite j.store f.place.index .damaged
    retired := retired
    state := if j.retired.length < Config.retiredPlaces then j.state else .fault .retiredList
    writer := freshPage retired f.place.page
    inFlight := none }

/-- The rule on FAULT after a retirement (R123): RESERVE when a NORMAL journal with writing open has fewer free slots than the
reserve; JOURNAL_FAULT at an entry from NORMAL. -/
def State.faultRule (s : State) (before : JournalState) : State :=
  let s1 := if s.journal.state = .normal ∧ s.journal.free < s.reserve
    then { s with journal := { s.journal with state := .fault .reserve } } else s
  if before = .normal ∧ s1.journal.state ≠ .normal then s1.notifyConsoleFleet .journalFault else s1

/-- A verify fails (R122): the page is retired and the record is filed again at the new writer. -/
def State.verifyFail (s : State) : State :=
  match s.journal.inFlight with
  | some f =>
    let s1 := { s with journal := s.journal.retire f }
    ((s1.faultRule s.journal.state).updateLow).fileOn
  | none => s

/-! ### Entry to FILING -/

/-- Total due (R3). -/
def Hire.totalDue (h : Hire) : Nat := h.metered + h.extrasAmount

/-- Approved sum (R3). -/
def Hire.approvedSum (h : Hire) : Nat := sumWhere Payment.isApproved Payment.amount h.payments

/-- Pending sum (R3). -/
def Hire.pendingSum (h : Hire) : Nat := sumWhere Payment.isPending Payment.amount h.payments

/-- Balance (R3). -/
def Hire.balance (h : Hire) : Nat := h.totalDue - h.approvedSum - h.pendingSum

/-- The HIRE record of a hire (R116). -/
def Hire.record (h : Hire) (sl : SlotId) : HireRecord where
  slot := sl
  number := h.number.getD 0
  tariffId := h.tariffId
  reference := h.booking.map Booking.reference
  startTime := h.startTime
  stopTime := h.stopTime.getD h.startTime
  metres := h.metres
  steps := h.steps
  flagFall := h.flagFall
  metered := h.metered
  tips := approvedTips h.payments
  extras := h.extras
  capped := h.capped
  unpaid := h.outcome == some .unpaid
  payments := h.payments

/-- The hire as it is fixed at entry to FILING (R21). -/
def Hire.filed (h : Hire) (o : HireOutcome) : Hire := { h with stage := .filing, outcome := some o }

/-- Entry to FILING (R21): outcome, stage, the record handed to the Journal, the stage change handed on. The Journal's filing itself
is begun by `fileOn` at the end of the event. -/
def State.enterFiling (s : State) (sl : SlotId) (o : HireOutcome) : State :=
  let h := (s.hire sl).filed o
  ((s.putHire sl h).handOver (.hire (h.record sl))).enterStage sl h

end Sys2Proof.Machine
end

