-- ==== Sys2Proof/Machine/Replies.lean ====
section
/-! DEFINITION. The items of reply payloads (R185): items that may be absent, clock times, the hire record with its payments (R6,
R50, R94), and the named values' numbers. -/

namespace Sys2Proof.Machine

/-- An item that may be absent: one byte 1 and the item, or 0 and zeros over the item's length (R185). -/
def optItem {α : Type} (width : Nat) (f : α → List Byte) : Option α → List Byte
  | none => 0 :: List.replicate width 0
  | some x => 1 :: f x

/-- A list of items, its length before it in one byte (log entry 11, DEDUCED). -/
def listItem {α : Type} (f : α → List Byte) (xs : List α) : List Byte := be1 xs.length ++ xs.flatMap f

/-- A clock time in eight bytes (10_ports, Layouts). -/
def ClockTime.bytes (t : ClockTime) : List Byte :=
  be2 t.year ++ be1 t.month ++ be1 t.day ++ be1 t.weekday ++ be1 t.hour ++ be1 t.minute ++ be1 t.second

/-- A booking reference in eight bytes. -/
def bookingRefBytes (r : BitVec 64) : List Byte := beBytes 8 r.toNat

/-- A payment reference in twelve bytes. -/
def paymentRefBytes (r : BitVec 96) : List Byte := beBytes 12 r.toNat

/-! ### Numbers of named values, in the order their rules list them (R185) -/

/-- METERED 0, FIXED 1 (R53). -/
def TariffKind.byte : TariffKind → Byte
  | .metered => 0
  | .fixed => 1

/-- COMBINED 0, PARALLEL 1, DISTANCE 2, TIME 3 (10_ports, Chain blocks). -/
def BandMode.byte : BandMode → Byte
  | .combined => 0
  | .parallel => 1
  | .distance => 2
  | .time => 3

/-- DRIVER 0, POWER 1 (R2). -/
def SuspendReason.byte : SuspendReason → Byte
  | .driver => 0
  | .power => 1

/-- PAID 0, UNPAID 1 (R2). -/
def HireOutcome.byte : HireOutcome → Byte
  | .paid => 0
  | .unpaid => 1

/-- CARD 0, CASH 1, ACCOUNT 2 (R73). -/
def PayMethod.byte : PayMethod → Byte
  | .card => 0
  | .cash => 1
  | .account => 2

/-- ONLINE 0, OFFLINE 1 (R73). -/
def Route.byte : Route → Byte
  | .online => 0
  | .offline => 1

/-- PENDING 0 to REVERSED 4 (R73). -/
def PayState.byte : PayState → Byte
  | .pending => 0
  | .approved => 1
  | .declined => 2
  | .expired => 3
  | .reversed => 4

/-- The port of a claim or an entry: Payment 0, Fleet 1, Console 2 (R73). -/
def portByte : PortId → Byte
  | .payment => 0
  | .fleet => 1
  | .console => 2

/-- CLOSED 0, OPEN 1, CLOSING 2 (R96). -/
def ShiftState.byte : ShiftState → Byte
  | .closed => 0
  | .opened => 1
  | .closing => 2

/-- The number of a stage (R2, R182). -/
def Stage.byte (st : Stage) : Byte := BitVec.ofNat 8 st.bit

/-! ### READ_HIRE -/

/-- The whole seconds from a count to a later one, rounded up (R72). -/
def secondsLeft (now expiry : Nat) : Nat := (expiry - now + 99) / 100

/-- A payment entry as READ_HIRE reports it (R94). -/
def Payment.bytes (now : Nat) (index : Nat) (e : Payment) : List Byte :=
  be1 index ++ [e.method.byte] ++ be4 e.amount ++ be4 e.tip ++ optItem 1 (fun r => [Route.byte r]) e.route
    ++ optItem 12 paymentRefBytes e.reference ++ [e.state.byte, portByte e.port, flagByte e.late]
    ++ optItem 2 (fun d => be2 (secondsLeft now d)) (if e.isPending then e.due else none)

/-- The entries of a list with their indices from `index` on. -/
def paymentsBytes (now : Nat) : Nat → List Payment → List Byte
  | _, [] => []
  | index, e :: rest => e.bytes now index ++ paymentsBytes now (index + 1) rest

/-- The fields of R2 in the order of its table, the fields of R50 among them, then total due and balance (R6). -/
def Hire.bytes (now : Nat) (h : Hire) : List Byte :=
  [h.stage.byte] ++ optItem 2 be2 h.number
    ++ optItem 16 (fun b : Booking => bookingRefBytes b.reference ++ b.deadline.bytes) h.booking
    ++ be1 h.tariffId ++ [h.tariffKind.byte] ++ be4 h.flagFall ++ be1 h.band ++ [flagByte h.distInitial, flagByte h.timeInitial]
    ++ be4 h.distAcc ++ be2 h.timeAcc ++ be1 h.residue ++ be4 h.metered
    ++ listItem (fun x => be1 x.1 ++ be1 x.2) h.extras ++ be4 h.extrasAmount ++ be2 h.steps ++ [flagByte h.capped]
    ++ be4 h.pulses ++ be4 h.metres ++ be2 h.metreRem ++ h.startTime.bytes ++ optItem 8 ClockTime.bytes h.stopTime
    ++ optItem 1 (fun r => [SuspendReason.byte r]) h.suspendReason ++ optItem 1 (fun st => [Stage.byte st]) h.resumeStage
    ++ [flagByte h.pendingStop] ++ optItem 3 (fun c : Claim => portByte c.port :: be2 (secondsLeft now c.expiry)) h.claim
    ++ be1 h.payments.length ++ paymentsBytes now 1 h.payments ++ optItem 1 (fun o => [HireOutcome.byte o]) h.outcome
    ++ be4 h.totalDue ++ be4 h.balance

/-- What READ_HIRE carries: for a FREE slot the stage alone (R6). -/
def Hire.report (now : Nat) (h : Hire) : List Byte := if h.stage = .free then [Stage.byte .free] else h.bytes now

end Sys2Proof.Machine
end

