-- ==== Sys2Proof/Machine/Settlement.lean ====
section
/-! DEFINITION. The Settlement Unit: claims, payments, results, expiry, reversal, cash and the settlement check (R19, R72 to R95). -/

namespace Sys2Proof.Machine

/-! ### Shared by every request that names a slot -/

/-- A request that names a slot: NO_SUCH unless it is A, B or C (R1). -/
def withSlot (b : Byte) (work : SlotId → Owner) : Owner :=
  match slotOf b with
  | none => refusedBy .noSuch
  | some sl => work sl

/-- The answer OK with the state after. -/
def done (s : State) (items : List Byte) : State × Reply := (s, .of .ok items)

/-! ### Claims -/

/-- The hire is claimed by this port. -/
def Hire.claimedBy (h : Hire) (p : PortId) : Bool :=
  match h.claim with
  | some c => c.port == p
  | none => false

/-- The hire is claimed by a port other than this one. -/
def Hire.claimedByOther (h : Hire) (p : PortId) : Bool :=
  match h.claim with
  | some c => c.port != p
  | none => false

/-- The expiry count of a claim granted or renewed now (R74, R75). -/
def State.claimExpiry (s : State) : Nat := s.timeBase + s.tariffs.config.claimTimeout * Config.ticksPerSecond

/-- The hire with the claim of a port granted or renewed now (R74, R75). -/
def State.claimed (s : State) (p : PortId) (h : Hire) : Hire := { h with claim := some ⟨p, s.claimExpiry⟩ }

/-- The claim of a slot renewed when the port holds it (R75). -/
def State.renew (s : State) (p : PortId) (sl : SlotId) : State :=
  if (s.hire sl).claimedBy p then s.putHire sl (s.claimed p (s.hire sl)) else s

/-- The port holds a claim on some hire. -/
def State.holdsClaim (s : State) (p : PortId) : Bool :=
  s.hires.a.claimedBy p || s.hires.b.claimedBy p || s.hires.c.claimedBy p

/-! ### The settlement check -/

/-- The four conditions of R19 on a STOPPED hire. -/
def Hire.settled (h : Hire) : Bool :=
  h.stage == .stopped && h.claim.isNone && !(h.payments.any Payment.isPending) && h.balance == 0
    && h.payments.any Payment.isApproved

/-- The settlement check (R19, R91): a hire that meets all four conditions enters FILING with outcome PAID. -/
def State.settle (s : State) (sl : SlotId) : State := if (s.hire sl).settled then s.enterFiling sl .paid else s

/-- The settlement check that ends a request on one hire, and the filing of the record it hands over (R19, R21, R91). -/
def State.settleAndFile (s : State) (sl : SlotId) : State :=
  if (s.hire sl).settled then (s.enterFiling sl .paid).fileOn else s

/-- CLAIM (R74). -/
def claimOwner (p : PortId) (slot : Byte) : Owner := withSlot slot fun sl s =>
  let h := s.hire sl
  checked [(h.stage == .stopped, .badStage), (!h.claimedByOther p, .claimed)] (fun s =>
    if h.claimedBy p then done (s.renew p sl) []
    else checked [(!s.holdsClaim p, .notPermitted)] (fun s =>
      done ((s.putHire sl (s.claimed p h)).settleAndFile sl) (be2 s.tariffs.config.claimTimeout)) s) s

/-- A PENDING entry becomes EXPIRED (R77). Its route and its reference stay absent, for CARD and ACCOUNT alike (log entry 52, DEDUCED). -/
def Payment.lapse (e : Payment) : Payment := if e.isPending then { e with state := .expired } else e

/-- The hire with every PENDING entry EXPIRED and no claim (R26, R77). -/
def Hire.released (h : Hire) : Hire := { h with payments := h.payments.map Payment.lapse, claim := none }

/-- The checks RELEASE, BEGIN_PAYMENT and REVERSE share (R77, R80, R89). -/
def claimantChecks (p : PortId) (h : Hire) : List (Bool × Code) :=
  [(h.stage == .stopped, .badStage), (!h.claimedByOther p, .claimed), (h.claimedBy p, .notClaimant)]

/-- RELEASE (R77). -/
def releaseOwner (p : PortId) (slot : Byte) : Owner := withSlot slot fun sl s =>
  let h := s.hire sl
  checked (claimantChecks p h) (fun s => done ((s.putHire sl h.released).settleAndFile sl) []) s

/-! ### Payments -/

/-- The greatest tip (R73). -/
def maxTip : Nat := 99999

/-- The amount is at least 1 and at most the balance (R80, R90). -/
def amountFits (h : Hire) (amount : Word) : Bool := 1 ≤ amount.toNat && amount.toNat ≤ h.balance

/-- The hire with an entry placed at the end of its payments list. -/
def Hire.withPayment (h : Hire) (e : Payment) : Hire := { h with payments := h.payments ++ [e] }

/-- The entry BEGIN_PAYMENT creates (R80). -/
def State.pendingEntry (s : State) (p : PortId) (m : PayMethod) (amount tip : Word) : Payment :=
  ⟨m, amount.toNat, tip.toNat, none, none, .pending, p, some (s.timeBase + s.tariffs.config.paymentTimeout * Config.ticksPerSecond),
    false⟩

/-- BEGIN_PAYMENT (R80). -/
def beginPaymentOwner (p : PortId) (slot method : Byte) (amount tip : Word) : Owner := withSlot slot fun sl s =>
  let h := s.hire sl
  checked (claimantChecks p h ++ [
      (decide (h.payments.length < 4), .full),
      (methodOf method == some .card || methodOf method == some .account, .range),
      (amountFits h amount, .range),
      (decide (tip.toNat ≤ maxTip), .range)]) (fun s =>
    let e := s.pendingEntry p ((methodOf method).getD .card) amount tip
    done ((s.putHire sl (s.claimed p (h.withPayment e))).settleAndFile sl) (be1 (h.payments.length + 1))) s

/-- POST_CASH (R90). -/
def postCashOwner (slot : Byte) (amount tip : Word) : Owner := withSlot slot fun sl s =>
  let h := s.hire sl
  checked [
      (h.stage == .stopped, .badStage),
      (h.claim.isNone, .claimed),
      (decide (h.payments.length < 4), .full),
      (amountFits h amount, .range),
      (decide (tip.toNat ≤ maxTip), .range)] (fun s =>
    let e : Payment := ⟨.cash, amount.toNat, tip.toNat, some .online, none, .approved, .console, none, false⟩
    done ((s.putHire sl (h.withPayment e)).settleAndFile sl) (be1 (h.payments.length + 1))) s

/-! ### Entries by index -/

/-- The entry of an index, 1 on (R73). -/
def Hire.entry (h : Hire) (index : Nat) : Option Payment := if index = 0 then none else h.payments[index - 1]?

/-- The hire with the entry of an index replaced. -/
def Hire.putEntry (h : Hire) (index : Nat) (e : Payment) : Hire := { h with payments := h.payments.set (index - 1) e }

/-- The part with an amount taken from, or added to, the shift's offline total (R84, R89). -/
def State.setOffline (s : State) (n : Nat) : State := { s with shift := { s.shift with offlineTotal := n } }

/-- REVERSE of an APPROVED entry that is there (R89). -/
def reverseEntry (p : PortId) (sl : SlotId) (index : Nat) (e : Payment) : Owner := fun s =>
  let h := s.hire sl
  let s1 := if e.route = some .offline then s.setOffline (s.shift.offlineTotal - e.amount) else s
  done ((s1.putHire sl (s.claimed p (h.putEntry index { e with state := .reversed }))).settleAndFile sl) []

/-- REVERSE (R89). -/
def reverseOwner (p : PortId) (slot entry : Byte) : Owner := withSlot slot fun sl s =>
  let h := s.hire sl
  checked (claimantChecks p h) (fun s =>
    match h.entry entry.toNat with
    | none => (s, .refuse .noSuch)
    | some e =>
      checked [(e.isApproved, .notPermitted), (e.method != .cash, .notPermitted)] (reverseEntry p sl entry.toNat e) s) s

/-! ### Results -/

/-- A late approval recorded: the counter, the record when the journal has room beyond its reserve, and the notice (R88). -/
def State.lateApproval (s : State) (sl : SlotId) (number : Nat) (m : PayMethod) (amount tip : Nat) (ref : BitVec 96) : State :=
  let s1 := s.count .lateApprovals 1
  let s2 := if !s1.journal.inFault && decide (s1.reserve < s1.journal.free)
    then s1.handOver (.lateApproval sl number m amount tip ref) else s1
  (s2.notify .fleet .lateApproval).fileOn

/-- A refusal of PAYMENT_RESULT carries the entry's present state when the entry exists (R82). -/
def resultRefusal (c : Code) (e : Option Payment) : Reply := .of c (optItem 1 (fun x => [PayState.byte x.state]) e)

/-- The refusal as an owner. -/
def refusedWith (c : Code) (e : Option Payment) : Owner := fun s => (s, resultRefusal c e)

/-- The entry with a result written into it: state, route and reference (R83, R84). -/
def Payment.answered (e : Payment) (st : PayState) (route : Route) (ref : BitVec 96) : Payment :=
  { e with state := st, route := some route, reference := some ref }

/-- A result written into a PENDING entry: the claim is renewed and the settlement check runs (R83). -/
def writeResult (p : PortId) (sl : SlotId) (index : Nat) (e : Payment) : Owner := fun s =>
  done ((s.putHire sl (s.claimed p ((s.hire sl).putEntry index e))).settleAndFile sl) []

/-- A result for a PENDING entry (R83, R84). -/
def pendingResult (p : PortId) (sl : SlotId) (f : ResultFields) (approved : Bool) (route : Route) (e : Payment) : Owner := fun s =>
  if !(s.hire sl).claimedBy p then refusedWith .claimed (some e) s
  else if route = .offline ∧ e.method = .account then refusedWith .range (some e) s
  else if !approved then writeResult p sl f.entry.toNat (e.answered .declined route f.reference) s
  else match route with
    | .online => writeResult p sl f.entry.toNat (e.answered .approved .online f.reference) s
    | .offline =>
      if s.shift.offlineTotal + e.amount ≤ s.shift.ceiling then
        writeResult p sl f.entry.toNat (e.answered .approved .offline f.reference)
          (s.setOffline (s.shift.offlineTotal + e.amount))
      else refusedWith .overCeiling (some e) s

/-- What a late result taken for an EXPIRED entry does: nothing when it is DECLINED; in STOPPED an approval sets the mark and is
recorded once (R86); in FILING each approval is recorded and no mark is set (R87; log entry 30). -/
def State.lateResult (s : State) (sl : SlotId) (f : ResultFields) (approved : Bool) (e : Payment) : State :=
  let h := s.hire sl
  if !approved then s
  else if h.stage = .stopped then
    if e.late then s
    else (s.putHire sl (h.putEntry f.entry.toNat { e with late := true })).lateApproval sl (h.number.getD 0) e.method e.amount e.tip
      f.reference
  else s.lateApproval sl (h.number.getD 0) e.method e.amount e.tip f.reference

/-- A result for an EXPIRED entry: NOT_CLAIMANT from a port that did not create it, else LATE; the claimant's claim is renewed
(R86, R87). -/
def expiredResult (p : PortId) (sl : SlotId) (f : ResultFields) (approved : Bool) (e : Payment) : Owner := fun s =>
  if e.port ≠ p then refusedWith .notClaimant (some e) s
  else ((s.lateResult sl f approved e).renew p sl, .of .late [])

/-- The request repeats the entry's method, amount and tip (R82). -/
def repeats (f : ResultFields) (e : Payment) : Bool :=
  methodOf f.method == some e.method && f.amount.toNat == e.amount && f.tip.toNat == e.tip

/-- A result for a hire that is in its slot (R82). -/
def presentResult (p : PortId) (sl : SlotId) (f : ResultFields) (approved : Bool) (route : Route) : Owner := fun s =>
  let h := s.hire sl
  if h.stage = .engaged ∨ h.stage = .metering ∨ h.stage = .suspended then refusedWith .badStage (h.entry f.entry.toNat) s
  else match h.entry f.entry.toNat with
    | none => refusedWith .noSuch none s
    | some e =>
      if !repeats f e then refusedWith .range (some e) s
      else match e.state with
        | .pending => pendingResult p sl f approved route e s
        | .expired => expiredResult p sl f approved e s
        | _ => refusedWith .notPermitted (some e) s

/-- A result for a hire that has left its slot (R87). -/
def goneResult (sl : SlotId) (f : ResultFields) (approved : Bool) : Owner := fun s =>
  match methodOf f.method with
  | none => refusedWith .range none s
  | some m =>
    if approved then (s.lateApproval sl f.hire.toNat m f.amount.toNat f.tip.toNat f.reference, .of .late [])
    else (s, .of .late [])

/-- The slot holds the hire of a number (R82). -/
def Hire.named (h : Hire) (number : Nat) : Bool :=
  h.number == some number && h.stage != .free && h.stage != .booked

/-- The entry a PAYMENT_RESULT speaks of, when the named hire is in the slot and has it. -/
def State.resultEntry (s : State) (sl : SlotId) (f : ResultFields) : Option Payment :=
  if (s.hire sl).named f.hire.toNat then (s.hire sl).entry f.entry.toNat else none

/-- PAYMENT_RESULT (R82 to R88). A result or route outside its encoding is RANGE before the first check (R185). -/
def paymentResultOwner (p : PortId) (f : ResultFields) : Owner := fun s =>
  match resultOf f.result, routeOf f.route with
  | some approved, some route =>
    match slotOf f.slot with
    | none => refusedWith .noSuch none s
    | some sl =>
      if (s.hire sl).named f.hire.toNat then presentResult p sl f approved route s else goneResult sl f approved s
  | _, _ => refusedWith .range ((slotOf f.slot).bind fun sl => s.resultEntry sl f) s

/-! ### Expiry at the fare tick -/

/-- The entry's due count is reached (R85). -/
def Payment.dueAt (now : Nat) (e : Payment) : Bool :=
  e.isPending && (match e.due with
    | some d => decide (d ≤ now)
    | none => false)

/-- The entry EXPIRED when its due count is reached (R85). Its route and its reference stay absent (log entry 52, DEDUCED). -/
def Payment.expireAt (now : Nat) (e : Payment) : Payment := if e.dueAt now then { e with state := .expired } else e

/-- The expiry of the PENDING entries of one STOPPED hire, with the notice to its claimant and the settlement check (R85). -/
def State.expirePayments (s : State) (sl : SlotId) : State :=
  let h := s.hire sl
  if h.stage == .stopped && h.payments.any (Payment.dueAt s.timeBase) then
    let s1 := s.putHire sl { h with payments := h.payments.map (Payment.expireAt s.timeBase) }
    let s2 := match h.claim with
      | some c => s1.notify c.port .paymentExpired
      | none => s1
    s2.settle sl
  else s

/-- The claim's expiry count is reached (R78). -/
def Hire.claimLapses (h : Hire) (now : Nat) : Bool :=
  match h.claim with
  | some c => decide (c.expiry ≤ now)
  | none => false

/-- The expiry of one claim: a release, with the notices to the former claimant and the Console port (R78). -/
def State.expireClaim (s : State) (sl : SlotId) : State :=
  let h := s.hire sl
  match h.claim with
  | some c =>
    if c.expiry ≤ s.timeBase then
      (((s.putHire sl h.released).notify c.port .claimExpired).notify .console .claimExpired).settle sl
    else s
  | none => s

/-- The settlement work of a fare tick on one slot: entries first, then the claim (R78, R85). -/
def State.expireSlot (s : State) (sl : SlotId) : State := (s.expirePayments sl).expireClaim sl

/-! ### The commands -/

/-- CLAIM (R74). -/
def execClaim (p : PortId) (tag slot : Byte) (s : State) : Host.Outcome State Fault Refusal :=
  request p .claim tag (claimOwner p slot) s

/-- RELEASE (R77). -/
def execRelease (p : PortId) (tag slot : Byte) (s : State) : Host.Outcome State Fault Refusal :=
  request p .release tag (releaseOwner p slot) s

/-- BEGIN_PAYMENT (R80). -/
def execBeginPayment (p : PortId) (tag slot method : Byte) (amount tip : Word) (s : State) : Host.Outcome State Fault Refusal :=
  request p .beginPayment tag (beginPaymentOwner p slot method amount tip) s

/-- PAYMENT_RESULT (R82 to R88). -/
def execPaymentResult (p : PortId) (tag : Byte) (f : ResultFields) (s : State) : Host.Outcome State Fault Refusal :=
  request p .paymentResult tag (paymentResultOwner p f) s

/-- REVERSE (R89). -/
def execReverse (p : PortId) (tag slot entry : Byte) (s : State) : Host.Outcome State Fault Refusal :=
  request p .reverse tag (reverseOwner p slot entry) s

/-- POST_CASH (R90). -/
def execPostCash (p : PortId) (tag slot : Byte) (amount tip : Word) (s : State) : Host.Outcome State Fault Refusal :=
  request p .postCash tag (postCashOwner slot amount tip) s

end Sys2Proof.Machine
end

