-- ==== Sys2Proof/Machine/SignDriver.lean ====
section
/-! DEFINITION. The Sign Driver: ramps, the alarm flash, lamp checks, the sign test, its requests, and its power-on values (R132 to
R144). The derivation of the target stands in Flags.lean. -/

namespace Sys2Proof.Machine

/-! ### The lamps by name -/

/-- A lamp by its name. -/
def Lamps.get (l : Lamps) : LampId → Lamp
  | .vacant => l.vacant
  | .hired => l.hired
  | .offDuty => l.offDuty
  | .share => l.share
  | .alarm => l.alarm

/-- The lamps with one replaced. -/
def Lamps.put (l : Lamps) (i : LampId) (x : Lamp) : Lamps :=
  match i with
  | .vacant => { l with vacant := x }
  | .hired => { l with hired := x }
  | .offDuty => { l with offDuty := x }
  | .share => { l with share := x }
  | .alarm => { l with alarm := x }

/-- The lamps with one set to a level at once. -/
def Lamps.setLevel (l : Lamps) (i : LampId) (n : Nat) : Lamps := l.put i { l.get i with level := n }

/-- The level of a lamp drive output: the lamp's level, or off from the power-fail warning on (R132, R190). -/
def driveLevel (s : State) (i : LampId) : Nat := if s.runs then (s.sign.lamps.get i).level else 0

/-! ### Ramps -/

/-- A lamp above its goal falls by one (R137). -/
def Lamp.lower (x : Lamp) : Lamp := if x.goal < x.level then { x with level := x.level - 1 } else x

/-- A lamp below its goal rises by one when it may (R137). -/
def Lamp.raise (x : Lamp) (may : Bool) : Lamp := if may && x.level < x.goal then { x with level := x.level + 1 } else x

/-- The lowering of a ramp step (R137). -/
def Lamps.lowerFront (l : Lamps) : Lamps :=
  { l with vacant := l.vacant.lower, hired := l.hired.lower, offDuty := l.offDuty.lower, share := l.share.lower }

/-- The raising of a ramp step: a group lamp rises only while the others of the group stand at 0 (R137). -/
def Lamps.raiseFront (l : Lamps) : Lamps :=
  { l with
    vacant := l.vacant.raise (l.hired.level == 0 && l.offDuty.level == 0)
    hired := l.hired.raise (l.vacant.level == 0 && l.offDuty.level == 0)
    offDuty := l.offDuty.raise (l.vacant.level == 0 && l.hired.level == 0)
    share := l.share.raise true }

/-- A ramp step: lowering, then raising (R137). -/
def Lamps.rampStep (l : Lamps) : Lamps := l.lowerFront.raiseFront

/-- A ramp step, set aside while a test runs (R143). -/
def Sign.ramp (x : Sign) : Sign := if x.test.isSome then x else { x with lamps := x.lamps.rampStep }

/-- The ramp of a tick: it steps when the count becomes even (R137). -/
def State.rampTick (s : State) : State := if s.timeBase % 2 = 0 then { s with sign := s.sign.ramp } else s

/-! ### The ambient line -/

/-- The reading of the ambient line disagrees with the ambient value for the hundredth tick in turn (R136). -/
def ambientTurns (x : Sign) (night : Bool) : Bool := x.night != night && decide (100 ≤ x.disagree + 1)

/-- A reading of the ambient line (R136). -/
def State.readAmbient (s : State) (night : Bool) : State :=
  if s.sign.night = night then { s with sign := { s.sign with disagree := 0 } }
  else if ambientTurns s.sign night then { s with sign := { s.sign with night := night, disagree := 0 } }.fullLevelChanged
  else { s with sign := { s.sign with disagree := s.sign.disagree + 1 } }

/-! ### The alarm flash -/

/-- The flash begins, or begins again, with an ON phase of 50 ticks and the ALARM lamp at the full level (R139). -/
def Sign.flashOn (x : Sign) (full : Nat) : Sign := { x with flash := some ⟨true, 50⟩ }.alarmLevel full

/-- The flash ends and the ALARM lamp is dark (R139). -/
def Sign.flashOff (x : Sign) : Sign := { x with flash := none }.alarmLevel 0

/-- The phase runs out at this tick (R139). -/
def Flash.ends (f : Flash) : Bool := f.left ≤ 1

/-- The flash at a tick: the ticks left fall, and at 0 the phase turns over (R139). -/
def Sign.flashTick (x : Sign) (full : Nat) : Sign :=
  match x.flash with
  | none => x
  | some f =>
    if f.ends then { x with flash := some ⟨!f.on, 50⟩ }.alarmLevel (if f.on then 0 else full)
    else { x with flash := some { f with left := f.left - 1 } }

/-- The level the flash gives the ALARM lamp (R139, R143). -/
def Sign.flashLevel (x : Sign) (full : Nat) : Nat :=
  match x.flash with
  | some ⟨true, _⟩ => full
  | _ => 0

/-! ### The sign test -/

/-- The lamp tested after a lamp (R143). -/
def LampId.next : LampId → Option LampId
  | .vacant => some .hired
  | .hired => some .offDuty
  | .offDuty => some .share
  | .share => some .alarm
  | .alarm => none

/-- Every front lamp dark at once. -/
def Lamps.frontDark (l : Lamps) : Lamps :=
  (((l.setLevel .vacant 0).setLevel .hired 0).setLevel .offDuty 0).setLevel .share 0

/-- The test begins: VACANT at 15 and every other front lamp at 0 (R143). -/
def Sign.beginTest (x : Sign) : Sign :=
  { x with lamps := x.lamps.frontDark.setLevel .vacant 15, test := some ⟨.vacant, 100⟩ }

/-- The test at its end: the ALARM lamp returns to its flash or to 0, and the front lamps take the goals of the target (R143). -/
def Sign.endTest (x : Sign) (full : Nat) : Sign :=
  let y := { x with test := none }
  (y.alarmLevel (y.flashLevel full)).aim y.target full

/-- The test moves to its next lamp (R143). -/
def Sign.stepTest (x : Sign) (tested following : LampId) : Sign :=
  { x with lamps := (x.lamps.setLevel tested 0).setLevel following 15, test := some ⟨following, 100⟩ }

/-- A step of the test runs out at this tick (R143). -/
def SignTest.ends (t : SignTest) : Bool := t.left ≤ 1

/-- The test at a tick (R143). -/
def State.testTick (s : State) : State :=
  match s.sign.test with
  | none => s
  | some t =>
    if t.ends then
      match t.lamp.next with
      | some i => { s with sign := s.sign.stepTest t.lamp i }
      | none => { s with sign := s.sign.endTest s.fullLevel }.notify .fleet .signTestDone
    else { s with sign := { s.sign with test := some { t with left := t.left - 1 } } }

/-! ### Lamp checks -/

/-- A lamp after its check: a low sense line is a miss, three misses set the flag, a high line clears both (R140). -/
def Lamp.check (x : Lamp) (high : Bool) : Lamp :=
  if x.level < 8 then x
  else if high then { x with misses := 0, fault := false }
  else { x with misses := min (x.misses + 1) 3, fault := x.fault || decide (3 ≤ x.misses + 1) }

/-- The check of every lamp (R140). -/
def Lamps.check (l : Lamps) (b : LampBits) : Lamps :=
  ⟨l.vacant.check b.vacant, l.hired.check b.hired, l.offDuty.check b.offDuty, l.share.check b.share, l.alarm.check b.alarm⟩

/-- A flag has been set that was clear (R141). -/
def newFault (before after : Lamp) : Bool := after.fault && !before.fault

/-- A front lamp's flag has been set (R141). -/
def newFrontFault (l m : Lamps) : Bool :=
  newFault l.vacant m.vacant || newFault l.hired m.hired || newFault l.offDuty m.offDuty || newFault l.share m.share

/-- The lamp checks of a fare tick, with SIGN_FAULT to the Console and Fleet ports for a front lamp and to the Fleet port alone for
ALARM (R140, R141). -/
def State.checkLamps (s : State) (b : LampBits) : State :=
  let m := s.sign.lamps.check b
  let s1 := { s with sign := { s.sign with lamps := m } }
  let s2 := if newFrontFault s.sign.lamps m then s1.notifyConsoleFleet .signFault else s1
  if newFault s.sign.lamps.alarm m.alarm then s2.notify .fleet .signFault else s2

/-- The Sign Driver's work on a tick, in the order of log entry 9. -/
def State.signTick (s : State) (fare : Bool) : State :=
  let s1 := s.rampTick.readAmbient s.pins.night
  let s2 := { s1 with sign := s1.sign.flashTick s1.fullLevel }
  let s3 := s2.testTick
  if fare then s3.checkLamps s3.pins.sense else s3

/-! ### Clears and power-on values -/

/-- A lamp dark, with no fault and no miss; its goal is kept. -/
def Lamp.cleared (x : Lamp) : Lamp := { x with level := 0, fault := false, misses := 0 }

/-- Every lamp cleared (R144). -/
def Lamps.cleared (l : Lamps) : Lamps :=
  ⟨l.vacant.cleared, l.hired.cleared, l.offDuty.cleared, l.share.cleared, { l.alarm.cleared with goal := 0 }⟩

/-- The target and goals derived afresh, with the flash begun with an ON phase while the alarm is ACTIVE (R132, R144). -/
def State.signDerived (s : State) : State :=
  let x := s.sign.aim s.derivedTarget s.fullLevel
  { s with sign := if s.alarm.state = .active then x.flashOn s.fullLevel else x }

/-- Sign clear (R144). -/
def State.signClear (s : State) : State :=
  { s with sign := { s.sign with lamps := s.sign.lamps.cleared, test := none } }.signDerived

/-- The sign's power-on values with an override, the ambient value read from its line (R132). -/
def Sign.powerOn (ov : Override) (night : Bool) : Sign where
  override := ov
  target := ⟨none, false⟩
  lamps := ⟨Lamp.dark, Lamp.dark, Lamp.dark, Lamp.dark, Lamp.dark⟩
  night := night
  disagree := 0
  test := none
  flash := none

/-- The sign at power-on and at Part clear (R132, R193). -/
def State.signPowerOn (s : State) (ov : Override) : State :=
  { s with sign := Sign.powerOn ov s.pins.night }.signDerived

/-! ### Status replies -/

/-- AUTO 0, OFF_DUTY 1, FULL 2 (R132). -/
def Override.byte : Override → Byte
  | .auto => 0
  | .offDuty => 1
  | .full => 2

/-- The target as a mask: bit 0 VACANT, 1 HIRED, 2 OFF_DUTY, 3 SHARE (log entry 11, DEDUCED). -/
def Target.byte (t : Target) : Byte :=
  BitVec.ofNat 8 (bitsOf [t.group == some .vacant, t.group == some .hired, t.group == some .offDuty, t.share])

/-- The number of a lamp in the order of the test (R143). -/
def LampId.byte : LampId → Byte
  | .vacant => 0
  | .hired => 1
  | .offDuty => 2
  | .share => 3
  | .alarm => 4

/-- Override, target, ambient value and full level (R135, R142). -/
def State.signHead (s : State) : List Byte :=
  [s.sign.override.byte, s.sign.target.byte, flagByte s.sign.night] ++ be1 s.fullLevel

/-- A lamp's goal, level and fault flag (R135). -/
def Lamp.bytes (x : Lamp) : List Byte := be1 x.goal ++ be1 x.level ++ [flagByte x.fault]

/-- A lamp with its miss count (R142). -/
def Lamp.testBytes (x : Lamp) : List Byte := x.bytes ++ be1 x.misses

/-- What every reply to SIGN_OVERRIDE carries: nothing about the ALARM lamp (R135). -/
def State.overrideStatus (s : State) : List Byte :=
  let l := s.sign.lamps
  s.signHead ++ l.vacant.bytes ++ l.hired.bytes ++ l.offDuty.bytes ++ l.share.bytes ++ [flagByte s.sign.test.isSome]

/-- What every reply to SIGN_TEST carries (R142). -/
def State.testStatus (s : State) : List Byte :=
  let l := s.sign.lamps
  s.signHead ++ l.vacant.testBytes ++ l.hired.testBytes ++ l.offDuty.testBytes ++ l.share.testBytes ++ l.alarm.testBytes
    ++ [flagByte s.sign.test.isSome] ++ optItem 1 (fun t : SignTest => [t.lamp.byte]) s.sign.test
    ++ optItem 1 (fun t : SignTest => be1 t.left) s.sign.test

/-! ### Requests -/

/-- A reply of SIGN_OVERRIDE with the state after it (R135). -/
def overrideReply (s : State) (c : Code) : State × Reply := (s, .of c s.overrideStatus)

/-- SIGN_OVERRIDE with an override (R135); the value 3 is REPORT, which changes nothing, and any other is RANGE. -/
def signOverrideOwner (value : Byte) : Owner := fun s =>
  if value = 3 then overrideReply s .ok
  else match overrideOf value with
    | none => overrideReply s .range
    | some ov =>
      if s.shift.state = .opened then overrideReply { s with sign := { s.sign with override := ov } }.rederive .ok
      else overrideReply s .shiftState

/-- SIGN_OVERRIDE with REPORT (R135). -/
def signOverrideReportOwner : Owner := fun s => overrideReply s .ok

/-- A reply of SIGN_TEST with the state after it (R142). -/
def testReply (s : State) (c : Code) : State × Reply := (s, .of c s.testStatus)

/-- SIGN_TEST with RUN (R142, R143). The status its ACCEPTED reply carries is the one after the test has begun (log entry 40, DESIGN
CHOICE). -/
def signTestRunOwner : Owner := fun s =>
  match firstRefusal [(s.shift.state == .closed, .shiftState), (s.sign.test.isNone, .notPermitted)] with
  | some c => testReply s c
  | none => testReply { s with sign := s.sign.beginTest } .accepted

/-- SIGN_TEST with REPORT (R142). -/
def signTestReportOwner : Owner := fun s => testReply s .ok

/-- SIGN_CLEAR: the status as it stood before the clear (R144). -/
def signClearOwner : Owner := fun s => (s.signClear, .of .ok s.testStatus)

/-! ### The commands -/

/-- SIGN_OVERRIDE (R135). -/
def execSignOverride (p : PortId) (tag value : Byte) (s : State) : Host.Outcome State Fault Refusal :=
  request p .signOverride tag (signOverrideOwner value) s

/-- SIGN_OVERRIDE with REPORT (R135). -/
def execSignOverrideReport (p : PortId) (tag : Byte) (s : State) : Host.Outcome State Fault Refusal :=
  request p .signOverride tag signOverrideReportOwner s

/-- SIGN_TEST with RUN (R142, R143). -/
def execSignTestRun (p : PortId) (tag : Byte) (s : State) : Host.Outcome State Fault Refusal :=
  request p .signTest tag signTestRunOwner s

/-- SIGN_TEST with REPORT (R142). -/
def execSignTestReport (p : PortId) (tag : Byte) (s : State) : Host.Outcome State Fault Refusal :=
  request p .signTest tag signTestReportOwner s

/-- SIGN_CLEAR (R144). -/
def execSignClear (p : PortId) (tag : Byte) (s : State) : Host.Outcome State Fault Refusal :=
  request p .signClear tag signClearOwner s

end Sys2Proof.Machine
end

