-- ==== Sys2Proof/Machine/AlarmUnit.lean ====
section
/-! DEFINITION. The Alarm Unit: the alarm line, activation, presses, stand-down and the log (R165 to R172). -/

namespace Sys2Proof.Machine

/-! ### The line -/

/-- A press is taken at this reading: the press run reaches 50 while the armed flag is set (R166). -/
def Alarm.pressTaken (x : Alarm) (pressed : Bool) : Bool := pressed && x.armed && x.pressRun == 49

/-- The runs and the armed flag after a reading (R166). -/
def Alarm.readLine (x : Alarm) (pressed : Bool) : Alarm :=
  if pressed then { x with pressRun := min (x.pressRun + 1) 50, releaseRun := 0, armed := x.armed && !x.pressTaken pressed }
  else { x with pressRun := 0, releaseRun := min (x.releaseRun + 1) 2, armed := x.armed || decide (2 ≤ x.releaseRun + 1) }

/-! ### Activation, presses, stand-down -/

/-- The log with an entry at its end; a full log first loses its oldest (R167). -/
def logEntry (log : List AlarmEntry) (e : AlarmEntry) : List AlarmEntry :=
  (if 8 ≤ log.length then log.drop 1 else log) ++ [e]

/-- The newest entry changed. -/
def onNewest (f : AlarmEntry → AlarmEntry) : List AlarmEntry → List AlarmEntry
  | [] => []
  | [e] => [f e]
  | e :: rest => e :: onNewest f rest

/-- The entry of an activation now (R167). -/
def State.alarmEntry (s : State) : AlarmEntry :=
  ⟨s.clock, none, 1, s.hires.a.stage, s.hires.b.stage, s.hires.c.stage⟩

/-- A press taken while the alarm is QUIET (R167). -/
def State.activate (s : State) : State :=
  { s with
    alarm := { s.alarm with state := .active, log := logEntry s.alarm.log s.alarmEntry }
    sign := s.sign.flashOn s.fullLevel }.notify .fleet .alarm

/-- A press taken while the alarm is ACTIVE (R168). -/
def State.pressAgain (s : State) : State :=
  { s with alarm := { s.alarm with
      log := onNewest (fun e => { e with presses := min (e.presses + 1) 255 }) s.alarm.log } }.notify .fleet .alarm

/-- A press (R166). -/
def State.alarmPress (s : State) : State :=
  match s.alarm.state with
  | .quiet => s.activate
  | .active => s.pressAgain

/-- The Alarm Unit's work on a tick (R166). -/
def State.alarmTick (s : State) : State :=
  let taken := s.alarm.pressTaken s.pins.alarm
  let s1 := { s with alarm := s.alarm.readLine s.pins.alarm }
  if taken then s1.alarmPress else s1

/-- The stand-down of an ACTIVE alarm (R169). -/
def State.standDown (s : State) : State :=
  { s with
    alarm := { s.alarm with
      state := .quiet
      log := onNewest (fun e => { e with stoodDown := some s.clock }) s.alarm.log }
    sign := s.sign.flashOff }

/-- The activation time and press count of the entry closed (R169). -/
def closedEntryBytes (log : List AlarmEntry) : List Byte :=
  match log.getLast? with
  | some e => e.activated.bytes ++ be1 e.presses
  | none => []

/-- ALARM_STAND_DOWN (R169). -/
def alarmStandDownOwner : Owner := fun s =>
  match s.alarm.state with
  | .active => done s.standDown (closedEntryBytes s.alarm.log)
  | .quiet => done s []

/-! ### Reading the log -/

/-- QUIET 0, ACTIVE 1 (R165). -/
def AlarmState.byte : AlarmState → Byte
  | .quiet => 0
  | .active => 1

/-- An entry of the log with all of its fields (R165). -/
def AlarmEntry.bytes (e : AlarmEntry) : List Byte :=
  e.activated.bytes ++ optItem 8 ClockTime.bytes e.stoodDown ++ be1 e.presses ++ [e.stageA.byte, e.stageB.byte, e.stageC.byte]

/-- READ_ALARM_LOG (R170): the state, then the entries, and no count of them, as an empty log is answered with the state alone (log entry
42, DEDUCED). -/
def readAlarmLogOwner : Owner := fun s => done s (s.alarm.state.byte :: s.alarm.log.flatMap AlarmEntry.bytes)

/-! ### The commands -/

/-- ALARM_STAND_DOWN (R169). -/
def execAlarmStandDown (p : PortId) (tag : Byte) (s : State) : Host.Outcome State Fault Refusal :=
  request p .alarmStandDown tag alarmStandDownOwner s

/-- READ_ALARM_LOG (R170). -/
def execReadAlarmLog (p : PortId) (tag : Byte) (s : State) : Host.Outcome State Fault Refusal :=
  request p .readAlarmLog tag readAlarmLogOwner s

end Sys2Proof.Machine
end

