-- ==== Sys2Proof/Machine/FareEngine.lean ====
section
/-! DEFINITION. The Fare Engine: the wheel pulse, the fare tick on a hire, steps and shares, and the distance outside the hires
(R27 to R50). -/

namespace Sys2Proof.Machine

/-! ### Distance -/

/-- The metre method for one pulse, as arithmetic: the new remainder (R29). -/
def metreRemainder (k rem : Nat) : Nat := (rem + Config.unitsPerPulse) % k

/-- The metre method for one pulse: the whole metres drawn (R29). -/
def metresDrawn (k rem : Nat) : Nat := (rem + Config.unitsPerPulse) / k

/-- A saturating count (R27, R32). -/
def satAdd (v n : Nat) : Nat := min (v + n) Config.maxCount

/-- A pulse counted on a hire's own distance (R32, R45, R46). -/
def Hire.travel (k : Nat) (h : Hire) : Hire :=
  { h with
    pulses := satAdd h.pulses 1
    metres := satAdd h.metres (metresDrawn k h.metreRem)
    metreRem := metreRemainder k h.metreRem }

/-- The number of the highest band whose start is reached, among the bands from number `b` on (R32). -/
def bandReached (k pulses : Nat) : Nat → Nat → List Band → Nat
  | best, _, [] => best
  | best, b, x :: rest =>
    bandReached k pulses (if x.start * k ≤ pulses * Config.unitsPerPulse then b else best) (b + 1) rest

/-- The band of a tariff by its number (R27: 1..4). -/
def Tariff.band (t : Tariff) (b : Nat) : Option Band := if b = 0 then none else t.bands[b - 1]?

/-! ### Thresholds and triggers -/

/-- The distance threshold in force (R30). -/
def distThreshold (k : Nat) (t : Tariff) (x : Band) (h : Hire) : Nat := (if h.distInitial then t.d0 else x.step) * k

/-- The time threshold in force (R30). -/
def timeThreshold (t : Tariff) (x : Band) (h : Hire) : Nat := if h.timeInitial then t.t0 else x.time

/-- The trigger rule of a mode on a distance trigger; the threshold has been taken (R36 to R38). -/
def Hire.distTrigger (m : BandMode) (h : Hire) : Hire :=
  match m with
  | .combined => { h with timeAcc := 0, distInitial := false, timeInitial := false }
  | _ => { h with distInitial := false }

/-- The trigger rule of a mode on a time trigger (R36 to R38). -/
def Hire.timeTrigger (m : BandMode) (h : Hire) : Hire :=
  match m with
  | .combined => { h with timeAcc := 0, distAcc := 0, distInitial := false, timeInitial := false }
  | _ => { h with timeAcc := 0, timeInitial := false }

/-! ### Charging a step -/

/-- The share percent with n running hires (R40). -/
def sharePercent (t : Tariff) (n : Nat) : Nat := if n ≤ 1 then 100 else if n = 2 then t.s2 else t.s3

/-- The cents by which a charge raises the metered amount (R43). -/
def Hire.chargeOf (h : Hire) (c : Nat) : Nat :=
  if h.capped then 0 else if Config.fareCap < h.metered + h.extrasAmount + c then Config.fareCap - h.metered - h.extrasAmount else c

/-- A step charged at a share (R41, R43, R44): v is A × s plus the residue. -/
def Hire.charge (h : Hire) (amount share : Nat) : Hire :=
  let v := amount * share + h.residue
  { h with
    stage := if h.stage = .engaged then .metering else h.stage
    metered := h.metered + h.chargeOf (v / 100)
    residue := v % 100
    steps := if h.steps < Config.maxSteps then h.steps + 1 else h.steps
    capped := h.capped || decide (Config.fareCap < h.metered + h.extrasAmount + v / 100) }

/-- Distance triggers in turn while the accumulator has reached its threshold, at most `fuel` of them (R34). -/
def chargeDistance (k n : Nat) (t : Tariff) (x : Band) : Nat → Hire → Hire
  | 0, h => h
  | fuel + 1, h =>
    if 0 < distThreshold k t x h ∧ distThreshold k t x h ≤ h.distAcc then
      chargeDistance k n t x fuel
        ((Hire.distTrigger x.mode { h with distAcc := h.distAcc - distThreshold k t x h }).charge x.amount (sharePercent t n))
    else h

/-- The band changed at a pulse (R33). -/
def Hire.enterBand (h : Hire) (b : Nat) : Hire :=
  { h with band := b, distAcc := 0, timeAcc := 0, distInitial := false, timeInitial := false }

/-- The distance accumulator of a running hire at a pulse without a change of band (R34). Each trigger takes at least one unit, so
the accumulator bounds their number. -/
def Hire.advance (k n : Nat) (t : Tariff) (x : Band) (h : Hire) : Hire :=
  match x.mode with
  | .time => h
  | _ => chargeDistance k n t x (h.distAcc + Config.unitsPerPulse) { h with distAcc := h.distAcc + Config.unitsPerPulse }

/-- A pulse on a metered running hire, its distance counted (R32, R33, R34). Where a start-up has raised k the band found can be a lower
one; the hire then changes to it by R33 (log entry 43, DEDUCED). -/
def Hire.meterPulse (k n : Nat) (t : Tariff) (h : Hire) : Hire :=
  let b := bandReached k h.pulses h.band 1 t.bands
  if b ≠ h.band then h.enterBand b
  else match t.band h.band with
    | none => h
    | some x => h.advance k n t x

/-- The tariff a hire is metered by: none for a FIXED hire (R45), nor for one that a start-up found aboard with the tariff section bad
(R52). -/
def meteredBy (active : TariffSet) (h : Hire) : Option Tariff :=
  match h.tariffKind with
  | .fixed => none
  | .metered => if h.unmetered then none else active.tariff h.tariffId

/-- A pulse on one hire with n hires running (R31, R32, R45, R46). -/
def Hire.pulse (k n : Nat) (active : TariffSet) (h : Hire) : Hire :=
  if h.running then
    match meteredBy active h with
    | some t => (h.travel k).meterPulse k n t
    | none => h.travel k
  else if h.stage = .suspended then h.travel k
  else h

/-- A fare tick on one hire with n hires running (R35, R45, R46). -/
def Hire.fareTick (n : Nat) (active : TariffSet) (h : Hire) : Hire :=
  if h.running then
    match meteredBy active h with
    | none => h
    | some t =>
      match t.band h.band with
      | none => h
      | some x =>
        match x.mode with
        | .distance => h
        | _ =>
          let h1 := { h with timeAcc := h.timeAcc + 1 }
          if timeThreshold t x h1 ≤ h1.timeAcc then (Hire.timeTrigger x.mode h1).charge x.amount (sharePercent t n) else h1
  else h

/-- A hire written back after a pulse or tick: a change from ENGAGED to METERING is handed on (R12, R44). -/
def State.writeHire (s : State) (sl : SlotId) (h : Hire) : State :=
  if h.stage = (s.hire sl).stage then s.putHire sl h else s.enterStage sl h

/-- A change made to the record of every slot. -/
def State.eachHire (s : State) (f : Hire → Hire) : State :=
  ((s.writeHire .a (f s.hires.a)).writeHire .b (f s.hires.b)).writeHire .c (f s.hires.c)

/-! ### The pulse -/

/-- A pulse counts as vacant distance (R47). -/
def State.vacant (s : State) : Bool :=
  s.shift.state != .closed && s.hires.count (fun h => h.running || h.stage == .suspended) == 0

/-- The vacant remainder advanced, its metres handed to the shift's vacant-metres counter (R47). -/
def State.vacantPulse (s : State) : State :=
  { s with vacantRem := metreRemainder s.tariffs.config.k s.vacantRem }.count .vacantMetres
    (metresDrawn s.tariffs.config.k s.vacantRem)

/-- The odometer remainder advanced, its metres handed to total metres (R48, R109). -/
def State.odometerPulse (s : State) : State :=
  { s with
    odoRem := metreRemainder s.tariffs.config.k s.odoRem
    shift := s.shift.addOdometer (metresDrawn s.tariffs.config.k s.odoRem) }

/-- One pulse on the distance sender line (R31). -/
def State.wheelPulse (s : State) : State :=
  let s1 := s.eachHire (Hire.pulse s.tariffs.config.k s.hires.running s.tariffs.active)
  let s2 := if s.vacant then s1.vacantPulse else s1
  s2.odometerPulse

/-- The pulse brings the metres gained since the last hand-over to a write to 100 (R109). -/
def State.hundredFalls (s : State) : Bool :=
  decide (s.shift.gained < 100 ∧ 100 ≤ s.shift.gained + metresDrawn s.tariffs.config.k s.odoRem)

/-- The Fare Engine's work on a fare tick (R35). -/
def State.fareTickHires (s : State) : State := s.eachHire (Hire.fareTick s.hires.running s.tariffs.active)

/-- WHEEL_PULSE (R31): taken while the part runs. -/
def execWheelPulse (s : State) : Host.Outcome State Fault Refusal := .next (whenRunning State.wheelPulse s)

/-- TOTAL_METRES_100M (R109): the pulse whose metres bring the gain to 100, with the totalizer write it asks for. A pulse that does
not is no such event (log entry 4). -/
def execTotalMetres100m (s : State) : Host.Outcome State Fault Refusal :=
  .next (if s.hundredFalls then whenRunning State.wheelPulse s else s)

end Sys2Proof.Machine
end

