-- ==== Sys2Proof/Machine/HireRequests.lean ====
section
/-! DEFINITION. The requests of the Hire Controller: bookings, starts, suspensions, stops, extras, closing unpaid and reading a hire
(R6 to R22). -/

namespace Sys2Proof.Machine

/-! ### Bookings -/

/-- The free journal slots allow one more hire: at least the slots not FREE, plus 2 (R7, R10). -/
def State.roomForHire (s : State) : Bool := decide (s.hires.occupied + 2 ≤ s.journal.free)

/-- A seat may be taken in this slot: pooling is on, or every other slot is FREE (R7, R10). -/
def State.seatAllowed (s : State) (sl : SlotId) : Bool := s.shift.pooling || s.hires.othersFree sl

/-- The record of a BOOKED slot (R7). -/
def bookedHire (ref : BitVec 64) (deadline : ClockTime) : Hire :=
  { Hire.cleared with stage := .booked, booking := some ⟨ref, deadline⟩ }

/-- BOOK (R7). -/
def bookOwner (slot : Byte) (ref : BitVec 64) (deadline : Half) : Owner := withSlot slot fun sl s =>
  checked [
      (decide (1 ≤ deadline.toNat ∧ deadline.toNat ≤ 3600), .range),
      (s.shift.state == .opened, .shiftState),
      ((s.hire sl).stage == .free, .badStage),
      (s.seatAllowed sl, .notPermitted),
      (!s.journal.inFault, .journalFault),
      (s.roomForHire, .full)] (fun s =>
    done (s.enterStage sl (bookedHire ref (s.clock.plus deadline.toNat))) []) s

/-- CANCEL_BOOKING (R9). -/
def cancelBookingOwner (slot : Byte) : Owner := withSlot slot fun sl s =>
  checked [((s.hire sl).stage == .booked, .badStage)] (fun s => done (s.enterStage sl Hire.cleared) []) s

/-- The deadline of a BOOKED slot is reached or passed (R8). -/
def State.bookingLapses (s : State) (sl : SlotId) : Bool :=
  (s.hire sl).stage == .booked &&
    (match (s.hire sl).booking with
      | some b => s.clock.reached b.deadline
      | none => false)

/-- The expiry of a booking at a fare tick (R8). -/
def State.expireBooking (s : State) (sl : SlotId) : State :=
  if s.bookingLapses sl then (s.enterStage sl Hire.cleared).notifyConsoleFleet .bookingExpired else s

/-! ### Starting a hire -/

/-- The stage a hire is started in (R11). -/
def startStage (t : Tariff) : Stage :=
  match t.kind with
  | .fixed => .metering
  | .metered => if t.d0 = 0 ∧ t.t0 = 0 then .metering else .engaged

/-- The record of a hire as START_HIRE sets it up (R11). -/
def startedHire (id : Nat) (t : Tariff) (number : Nat) (now : ClockTime) (booking : Option Booking) : Hire :=
  { Hire.cleared with
    stage := startStage t
    number := some number
    booking := booking
    tariffId := id
    tariffKind := t.kind
    flagFall := t.flagFall
    metered := t.flagFall
    band := 1
    distInitial := t.kind == .metered && decide (0 < t.d0)
    timeInitial := t.kind == .metered && decide (0 < t.t0)
    startTime := now }

/-- The hire number after one is given (R4). -/
def hireNumberAfter (n : Nat) : Nat := if n < 65535 then n + 1 else 1

/-- The tariff id of a choice: 0 is AUTO, the calendar's (R10, R56). -/
def State.chosenTariff (s : State) (choice : Byte) : Nat :=
  if choice = 0 then calendarChoice s.tariffs.active.calendar s.clock else choice.toNat

/-- The hire set up in its slot, its number taken (R4, R11). -/
def beginHire (sl : SlotId) (id : Nat) (t : Tariff) : Owner := fun s =>
  let h := startedHire id t s.nextHire s.clock (s.hire sl).booking
  done ({ s with nextHire := hireNumberAfter s.nextHire }.enterStage sl h) (be2 s.nextHire ++ be1 id)

/-- START_HIRE (R10, R11). -/
def startHireOwner (slot choice : Byte) : Owner := withSlot slot fun sl s =>
  checked [
      ((s.hire sl).stage == .free || (s.hire sl).stage == .booked, .badStage),
      (s.shift.state == .opened, .shiftState),
      (!s.journal.inFault, .journalFault),
      (s.roomForHire, .full),
      (s.seatAllowed sl, .notPermitted),
      (choice == 0 || placeId choice.toNat, .range)] (fun s =>
    match s.tariffs.active.tariff (s.chosenTariff choice) with
    | none => (s, .refuse .noTariff)
    | some t => checked [(choice == 0 || t.manual, .notPermitted)] (beginHire sl (s.chosenTariff choice) t) s) s

/-! ### Suspension and stopping -/

/-- The hire suspended by the driver (R13). -/
def Hire.suspended (h : Hire) : Hire :=
  { h with stage := .suspended, suspendReason := some .driver, resumeStage := some h.stage, pendingStop := false }

/-- The hire stopped at a clock time (R15); what only SUSPENDED holds is absent (R2). -/
def Hire.stoppedAt (h : Hire) (now : ClockTime) : Hire :=
  { h with
    stage := .stopped
    stopTime := some now
    distAcc := 0
    timeAcc := 0
    suspendReason := none
    resumeStage := none
    pendingStop := false }

/-- The hire back in its resume stage (R14). -/
def Hire.resumed (h : Hire) : Hire :=
  { h with stage := h.resumeStage.getD .metering, suspendReason := none, resumeStage := none }

/-- SUSPEND (R13). -/
def suspendOwner (slot : Byte) : Owner := withSlot slot fun sl s =>
  checked [((s.hire sl).running, .badStage)] (fun s =>
    done ((s.enterStage sl (s.hire sl).suspended).count .suspensions 1) []) s

/-- RESUME (R14). -/
def resumeOwner (slot : Byte) : Owner := withSlot slot fun sl s =>
  let h := s.hire sl
  checked [(h.stage == .suspended, .badStage)] (fun s =>
    done (s.enterStage sl (if h.pendingStop then h.stoppedAt s.clock else h.resumed)) []) s

/-- STOP_HIRE (R15, R16). -/
def stopHireOwner (slot : Byte) : Owner := withSlot slot fun sl s =>
  let h := s.hire sl
  match h.stage with
  | .engaged => done (s.enterStage sl (h.stoppedAt s.clock)) []
  | .metering => done (s.enterStage sl (h.stoppedAt s.clock)) []
  | .suspended => done (s.putHire sl { h with pendingStop := true }) []
  | .stopped => checked [(h.claim.isNone, .claimed)] (fun s => done s []) s
  | .filing => done s []
  | .free => (s, .refuse .badStage)
  | .booked => (s, .refuse .badStage)

/-! ### Extras -/

/-- The stages in which extras may change (R17, R18). -/
def Hire.extrasOpen (h : Hire) : Bool := h.running || h.stage == .suspended || h.stage == .stopped

/-- The count of an extra in a list. -/
def extraCount (xs : List (Nat × Nat)) (id : Nat) : Nat := ((xs.find? (fun x => x.1 == id)).map Prod.snd).getD 0

/-- One more of an extra: its count raised, or the pair (id, 1) at the end (R17). -/
def raiseExtra (id : Nat) : List (Nat × Nat) → List (Nat × Nat)
  | [] => [(id, 1)]
  | x :: rest => if x.1 = id then (id, x.2 + 1) :: rest else x :: raiseExtra id rest

/-- One fewer of an extra: its pair leaves the list at 0 (R18). -/
def lowerExtra (id : Nat) : List (Nat × Nat) → List (Nat × Nat)
  | [] => []
  | x :: rest => if x.1 = id then (if x.2 ≤ 1 then rest else (id, x.2 - 1) :: rest) else x :: lowerExtra id rest

/-- ADD_EXTRA when the place of the extra is present (R17). -/
def addPresentExtra (sl : SlotId) (id : Nat) (e : ExtraEntry) : Owner := fun s =>
  let h := s.hire sl
  checked [
      (h.stage != .stopped || e.afterStop, .notPermitted),
      (decide (extraCount h.extras id + 1 ≤ e.maxCount), .range),
      (decide (h.metered + h.extrasAmount + e.amount ≤ Config.fareCap), .range)] (fun s =>
    done ((s.putHire sl { h with extras := raiseExtra id h.extras, extrasAmount := h.extrasAmount + e.amount }).settleAndFile sl)
      []) s

/-- ADD_EXTRA (R17). -/
def addExtraOwner (slot extra : Byte) : Owner := withSlot slot fun sl s =>
  let h := s.hire sl
  checked [(h.extrasOpen, .badStage), (h.claim.isNone, .claimed)] (fun s =>
    match s.tariffs.active.extra extra.toNat with
    | none => (s, .refuse .noSuch)
    | some e => addPresentExtra sl extra.toNat e s) s

/-- By how much the extras amount falls at a removal: the amount in the extras table (R18); of an empty place a free value
(R52, log entry 1). -/
def State.removedAmount (s : State) (id : Nat) : Nat :=
  match s.tariffs.active.extra id with
  | some e => e.amount
  | none => (Config.amountOfEmptyPlace s.draws).toNat

/-- The draws after a removal: one more when the place was empty. -/
def State.drawsAfterRemoval (s : State) (id : Nat) : Nat :=
  if (s.tariffs.active.extra id).isSome then s.draws else s.draws + 1

/-- REMOVE_EXTRA (R18). -/
def removeExtraOwner (slot extra : Byte) : Owner := withSlot slot fun sl s =>
  let h := s.hire sl
  let id := extra.toNat
  checked [
      (h.extrasOpen, .badStage),
      (h.claim.isNone, .claimed),
      (h.payments.isEmpty, .notPermitted),
      (h.extras.any (fun x => x.1 == id), .noSuch)] (fun s =>
    let h1 := { h with extras := lowerExtra id h.extras, extrasAmount := h.extrasAmount - s.removedAmount id }
    done (({ s with draws := s.drawsAfterRemoval id }.putHire sl h1).settleAndFile sl) []) s

/-! ### Closing and reading -/

/-- CLOSE_UNPAID (R20). An unclaimed hire holds no PENDING entry (R20), so the one refusal covers both conditions. -/
def closeUnpaidOwner (slot : Byte) : Owner := withSlot slot fun sl s =>
  let h := s.hire sl
  checked [(h.stage == .stopped, .badStage), (h.claim.isNone && !(h.payments.any Payment.isPending), .claimed)] (fun s =>
    done (s.enterFiling sl (if h.balance = 0 then .paid else .unpaid)).fileOn []) s

/-- READ_HIRE: the record as it stands, and the claimant's claim renewed after it (R6, R75, R94; log entry 13). -/
def readHireOwner (p : PortId) (slot : Byte) : Owner := withSlot slot fun sl s =>
  done (s.renew p sl) ((s.hire sl).report s.timeBase)

/-! ### The commands -/

/-- BOOK (R7). -/
def execBook (p : PortId) (tag slot : Byte) (ref : BitVec 64) (deadline : Half) (s : State) : Host.Outcome State Fault Refusal :=
  request p .book tag (bookOwner slot ref deadline) s

/-- CANCEL_BOOKING (R9). -/
def execCancelBooking (p : PortId) (tag slot : Byte) (s : State) : Host.Outcome State Fault Refusal :=
  request p .cancelBooking tag (cancelBookingOwner slot) s

/-- START_HIRE (R10, R11). -/
def execStartHire (p : PortId) (tag slot choice : Byte) (s : State) : Host.Outcome State Fault Refusal :=
  request p .startHire tag (startHireOwner slot choice) s

/-- SUSPEND (R13). -/
def execSuspend (p : PortId) (tag slot : Byte) (s : State) : Host.Outcome State Fault Refusal :=
  request p .suspend tag (suspendOwner slot) s

/-- RESUME (R14). -/
def execResume (p : PortId) (tag slot : Byte) (s : State) : Host.Outcome State Fault Refusal :=
  request p .resume tag (resumeOwner slot) s

/-- STOP_HIRE (R15, R16). -/
def execStopHire (p : PortId) (tag slot : Byte) (s : State) : Host.Outcome State Fault Refusal :=
  request p .stopHire tag (stopHireOwner slot) s

/-- ADD_EXTRA (R17). -/
def execAddExtra (p : PortId) (tag slot extra : Byte) (s : State) : Host.Outcome State Fault Refusal :=
  request p .addExtra tag (addExtraOwner slot extra) s

/-- REMOVE_EXTRA (R18). -/
def execRemoveExtra (p : PortId) (tag slot extra : Byte) (s : State) : Host.Outcome State Fault Refusal :=
  request p .removeExtra tag (removeExtraOwner slot extra) s

/-- CLOSE_UNPAID (R20). -/
def execCloseUnpaid (p : PortId) (tag slot : Byte) (s : State) : Host.Outcome State Fault Refusal :=
  request p .closeUnpaid tag (closeUnpaidOwner slot) s

/-- READ_HIRE (R6). -/
def execReadHire (p : PortId) (tag slot : Byte) (s : State) : Host.Outcome State Fault Refusal :=
  request p .readHire tag (readHireOwner p slot) s

end Sys2Proof.Machine
end

