-- ==== Sys2Proof/Machine/IntercomSwitch.lean ====
section
/-! DEFINITION. The Intercom Switch: elastic buffers, gains, codec frames, paths and talk modes, tones, the monitor tap and its
requests (R145 to R164). -/

namespace Sys2Proof.Machine

/-! ### The elastic buffer -/

/-- The slip counters stop at this value (R148). -/
def maxSlips : Nat := 65535

/-- A slip counted (R148). -/
def countSlip (n : Nat) : Nat := min (n + 1) maxSlips

/-- The distance of the fill from half the depth, in either direction (R148). -/
def Path.distance (x : Path) : Nat :=
  (x.buffer.length - x.depth / 2) + (x.depth / 2 - x.buffer.length)

/-- The peak brought up to date, while the centring flag is clear (R148). -/
def Path.updatePeak (x : Path) : Path := if x.centring then x else { x with peak := max x.peak x.distance }

/-- A write to the buffer: a full one first loses its oldest sample and counts an overflow slip (R146). -/
def Path.write (x : Path) (v : Sample) : Path :=
  if x.depth ≤ x.buffer.length then
    { x with buffer := x.buffer.drop 1 ++ [v], overflows := countSlip x.overflows }.updatePeak
  else { x with buffer := x.buffer ++ [v] }.updatePeak

/-- A read of a buffer that does not hold back for centring: the oldest sample, or the last one again with an underflow slip
(R147). -/
def Path.take (x : Path) : Sample × Path :=
  match x.buffer with
  | v :: rest => (v, { x with buffer := rest, last := v }.updatePeak)
  | [] => (x.last, { x with underflows := countSlip x.underflows }.updatePeak)

/-- A read of the buffer (R147): while centring below half full it gives 0 and takes nothing. -/
def Path.read (x : Path) : Sample × Path :=
  if x.centring && decide (x.buffer.length < x.depth / 2) then (0, x) else { x with centring := false }.take

/-! ### Gain -/

/-- The read sample times 17 times the gain, divided by 256 and truncated toward zero (R149). -/
def scaled (v : Sample) (gain : Nat) : Sample := BitVec.ofInt 16 ((v.toInt * (17 * gain : Nat)).tdiv 256)

/-- A gain moved one level toward a goal (R150). -/
def towards (gain goal : Nat) : Nat := if gain < goal then gain + 1 else if goal < gain then gain - 1 else gain

/-- The ramp step of a read: every 32 reads the gain moves one level toward its goal (R150). -/
def Path.ramp (x : Path) (goal : Nat) : Path :=
  if 32 ≤ x.readCount + 1 then { x with readCount := 0, gain := towards x.gain goal } else { x with readCount := x.readCount + 1 }

/-- The goal a path's own state gives it (R150). -/
def Path.goal (x : Path) : Nat := if x.state = .opened then x.volume else 0

/-- The goal of FR: its volume while a prompt plays (R150). -/
def Intercom.goalFR (x : Intercom) : Nat := if x.playing.isSome then x.fr.volume else x.fr.goal

/-- The goal of RF (R150). -/
def Intercom.goalRF (x : Intercom) : Nat := x.rf.goal

/-! ### Tones (R158) -/

/-- A tone begun: its samples left and the start of its wave. -/
def Playing.begin (tone : Nat) : Playing := ⟨tone, (Config.tone tone).samples, 0⟩

/-- The sample a tone gives: plus the amplitude in the even half-periods, minus it in the odd ones. -/
def Playing.sample (t : Playing) : Sample :=
  let e := Config.tone t.tone
  if t.pos / e.halfPeriod % 2 = 0 then BitVec.ofNat 16 e.amplitude else -(BitVec.ofNat 16 e.amplitude)

/-- The tone after giving a sample. -/
def Playing.next (t : Playing) : Playing := { t with left := t.left - 1, pos := t.pos + 1 }

/-- The tone ends with the sample it gives. -/
def Playing.ends (t : Playing) : Bool := t.left ≤ 1

/-- The read sample of a read: the tone's while a substitution plays, else the buffer's (R149). -/
def substituted (t : Option Playing) (v : Sample) : Sample :=
  match t with
  | some p => p.sample
  | none => v

/-! ### Paths -/

/-- Opening from closed (R153); the depth is the configuration's as it stands. -/
def Path.openFrom (x : Path) (depth : Nat) : Path :=
  { x with state := .opened, buffer := [], last := 0, centring := true, depth := depth }

/-- FR is wanted (R154). -/
def Intercom.wantsFR (x : Intercom) : Bool :=
  match x.mode with
  | .off => false
  | .duplex => true
  | .ptt => x.held
  | .privateTalk => x.held

/-- RF is wanted (R154). -/
def Intercom.wantsRF (x : Intercom) : Bool :=
  match x.mode with
  | .off => false
  | .duplex => true
  | .ptt => !x.held
  | .privateTalk => !x.held && x.chime.isSome

/-- PTT and PRIVATE: the modes of the half-duplex rule (R155). -/
def TalkMode.halfDuplex : TalkMode → Bool
  | .off => false
  | .duplex => false
  | .ptt => true
  | .privateTalk => true

/-- A path treated at a derivation (R154). -/
def Path.derived (x : Path) (wanted half : Bool) (depth : Nat) : Path :=
  if !wanted then { x with state := .closed }
  else if x.state = .opened then x
  else if half then { x with state := .waiting }
  else x.openFrom depth

/-- The wanted paths derived afresh (R154). -/
def Intercom.derive (x : Intercom) (depth : Nat) : Intercom :=
  { x with
    fr := x.fr.derived x.wantsFR x.mode.halfDuplex depth
    rf := x.rf.derived x.wantsRF x.mode.halfDuplex depth }

/-- A path opens when it is WAITING and the other path's gain is 0 (R155). -/
def Path.mayOpen (x other : Path) : Bool := x.state == .waiting && other.gain == 0

/-- The WAITING path opens from closed if the other gain is 0 (R155). -/
def Intercom.openWaiting (x : Intercom) (depth : Nat) : Intercom :=
  { x with
    fr := if x.fr.mayOpen x.rf then x.fr.openFrom depth else x.fr
    rf := if x.rf.mayOpen x.fr then x.rf.openFrom depth else x.rf }

/-- The gain of a path that is not OPEN set to 0 (R155). -/
def Path.silence (x : Path) : Path := if x.state = .opened then x else { x with gain := 0 }

/-- The quieting: gains of paths not OPEN become 0, FR excepted while a prompt plays (R155). -/
def Intercom.quiet (x : Intercom) : Intercom :=
  { x with fr := if x.playing.isSome then x.fr else x.fr.silence, rf := x.rf.silence }

/-- The derivation and what it opens (R154, R155). -/
def Intercom.settlePaths (x : Intercom) (depth : Nat) : Intercom := (x.derive depth).openWaiting depth

/-! ### Codec frames -/

/-- The chime after giving a sample; at its end the wanted paths are derived afresh (R151, R159). -/
def Intercom.chimeStep (x : Intercom) (depth : Nat) : Intercom :=
  match x.chime with
  | none => x
  | some t => if t.ends then { x with chime := none }.settlePaths depth else { x with chime := some t.next }

/-- The prompt after giving a sample; at its end the next entry begins, or the quieting is made in PTT and PRIVATE (R161). -/
def Intercom.promptStep (x : Intercom) (depth : Nat) : Intercom :=
  match x.playing with
  | none => x
  | some t =>
    if t.ends then
      match x.waiting with
      | tone :: rest => { x with playing := some (Playing.begin tone), waiting := rest }
      | [] =>
        let y := { x with playing := none }
        if y.mode.halfDuplex then (y.quiet).openWaiting depth else y
    else { x with playing := some t.next }

/-- The sum of two samples held within −32,767 and 32,767 (R162). -/
def mixed (v w : Sample) : Sample := BitVec.ofInt 16 (max (-32767) (min 32767 (v.toInt + w.toInt)))

/-- The monitor sample (R162): `cabin` is the value the RF read gave, `mic` the front microphone's. -/
def monitorSample (active : Bool) (sel : MonitorSelect) (cabin mic : Sample) : Sample :=
  if !active then 0
  else match sel with
    | .off => 0
    | .cabin => cabin
    | .front => mic
    | .mix => mixed cabin mic

/-- A frame on the front codec link (R151). -/
def Intercom.frontFrame (x : Intercom) (mic : Sample) (active : Bool) (depth : Nat) : Intercom :=
  let x1 := { x with fr := x.fr.write mic }
  let r := x1.rf.read
  let x2 := { x1 with rf := r.2, frontOut := scaled (substituted x1.chime r.1) x1.rf.gain }
  let x3 := x2.chimeStep depth
  let x4 := { x3 with rf := x3.rf.ramp x3.goalRF }
  let x5 := x4.openWaiting depth
  { x5 with monitorOut := monitorSample active x5.monitor r.1 mic }

/-- A frame on the rear codec link (R152). -/
def Intercom.rearFrame (x : Intercom) (mic : Sample) (depth : Nat) : Intercom :=
  let x1 := { x with rf := x.rf.write mic }
  let r := x1.fr.read
  let x2 := { x1 with fr := r.2, rearOut := scaled (substituted x1.playing r.1) x1.fr.gain }
  let x3 := x2.promptStep depth
  let x4 := { x3 with fr := x3.fr.ramp x3.goalFR }
  x4.openWaiting depth

/-- A front codec frame at the part. -/
def State.frontFrame (s : State) (mic : Sample) : State :=
  { s with intercom := s.intercom.frontFrame mic (s.alarm.state == .active) s.tariffs.config.depth }

/-- A rear codec frame at the part. -/
def State.rearFrame (s : State) (mic : Sample) : State :=
  { s with intercom := s.intercom.rearFrame mic s.tariffs.config.depth }

/-! ### The lines -/

/-- Push-to-talk changes at this reading: the line reads the other way for the second tick in turn (R156). -/
def Intercom.talkTurns (x : Intercom) (pressed : Bool) : Bool := pressed != x.held && x.talkNewer != x.held

/-- A reading of the push-to-talk line (R156). -/
def State.readTalk (s : State) (pressed : Bool) : State :=
  let x := s.intercom
  let y := { x with talkOlder := x.talkNewer, talkNewer := pressed }
  if x.talkTurns pressed then { s with intercom := { y with held := pressed }.settlePaths s.tariffs.config.depth }
  else { s with intercom := y }

/-- A press of the call line is taken at this reading: released, then pressed at two ticks in turn (R159). -/
def Intercom.callPressed (x : Intercom) (pressed : Bool) : Bool := pressed && x.callNewer && !x.callOlder

/-- The chime begun if it is absent (R159). -/
def Intercom.ring (x : Intercom) (depth : Nat) : Intercom :=
  if x.chime.isSome then x else { x with chime := some (Playing.begin Config.chimeTone) }.settlePaths depth

/-- A reading of the call line; a press counts in PRIVATE alone (R159). -/
def State.readCall (s : State) (pressed : Bool) : State :=
  let x := s.intercom
  let y := { x with callOlder := x.callNewer, callNewer := pressed }
  if x.callPressed pressed && x.mode == .privateTalk then
    { s with intercom := y.ring s.tariffs.config.depth }.notify .console .call
  else { s with intercom := y }

/-- The Intercom Switch's work on a tick (R156, R159). -/
def State.intercomTick (s : State) : State := (s.readTalk s.pins.talk).readCall s.pins.call

/-! ### Power-on -/

/-- The intercom's power-on values: the lines read as they stand (R145). -/
def Intercom.powerOn (pins : Lines) (depth : Nat) (monitor : MonitorSelect) : Intercom where
  mode := .off
  held := pins.talk
  talkOlder := pins.talk
  talkNewer := pins.talk
  callOlder := pins.call
  callNewer := pins.call
  fr := { Path.reset with depth := depth }
  rf := { Path.reset with depth := depth }
  playing := none
  waiting := []
  chime := none
  monitor := monitor
  frontOut := 0
  rearOut := 0
  monitorOut := 0

/-! ### Requests -/

/-- The mode changes between the modes that are and are not of the half-duplex rule in the way that calls for a quieting (R155). -/
def needsQuiet (old new : TalkMode) : Bool := !old.halfDuplex && new.halfDuplex

/-- The intercom in a new talk mode (R154, R155): a mode that leaves PRIVATE ends the chime; the wanted paths are derived; the quieting
follows when it is called for; then a WAITING path may open (log entry 23, DEDUCED). -/
def Intercom.enterMode (x : Intercom) (m : TalkMode) (depth : Nat) : Intercom :=
  let y := { x with mode := m, chime := if m = TalkMode.privateTalk then x.chime else none }.derive depth
  (if needsQuiet x.mode m then y.quiet else y).openWaiting depth

/-- SET_TALK_MODE (R154). -/
def setTalkModeOwner (mode : Byte) : Owner := fun s =>
  match talkModeOf mode with
  | none => (s, .refuse .range)
  | some m =>
    if m = s.intercom.mode then done s []
    else done { s with intercom := s.intercom.enterMode m s.tariffs.config.depth } []

/-- A path by its name. -/
def Intercom.path (x : Intercom) : PathId → Path
  | .fr => x.fr
  | .rf => x.rf

/-- A path replaced. -/
def Intercom.putPath (x : Intercom) (i : PathId) (y : Path) : Intercom :=
  match i with
  | .fr => { x with fr := y }
  | .rf => { x with rf := y }

/-- SET_VOLUME (R157). -/
def setVolumeOwner (path volume : Byte) : Owner := fun s =>
  match pathOf path with
  | none => (s, .refuse .range)
  | some i =>
    checked [(decide (volume.toNat ≤ 15), .range)] (fun s =>
      let y := { s.intercom.path i with volume := volume.toNat }
      done { s with intercom := s.intercom.putPath i y } (be1 y.gain)) s

/-- CLOSED 0, WAITING 1, OPEN 2 (R145). -/
def PathState.byte : PathState → Byte
  | .closed => 0
  | .waiting => 1
  | .opened => 2

/-- OFF 0, DUPLEX 1, PTT 2, PRIVATE 3 (R145). -/
def TalkMode.byte : TalkMode → Byte
  | .off => 0
  | .duplex => 1
  | .ptt => 2
  | .privateTalk => 3

/-- HELD 0, RELEASED 1 (R145). -/
def heldByte (held : Bool) : Byte := if held then 0 else 1

/-- A path as READ_INTERCOM reports it (R163). -/
def Path.bytes (x : Path) (goal : Nat) : List Byte :=
  [x.state.byte] ++ be1 x.depth ++ [flagByte x.centring] ++ be1 x.buffer.length ++ be1 x.peak ++ be2 x.overflows
    ++ be2 x.underflows ++ be1 x.volume ++ be1 goal ++ be1 x.gain

/-- The tones in the prompt queue, the playing one first. -/
def Intercom.prompts (x : Intercom) : List Nat := (x.playing.map Playing.tone).toList ++ x.waiting

/-- What READ_INTERCOM carries (R163). -/
def Intercom.bytes (x : Intercom) : List Byte :=
  [x.mode.byte, heldByte x.held] ++ x.fr.bytes x.goalFR ++ x.rf.bytes x.goalRF ++ listItem be1 x.prompts
    ++ optItem 2 (fun t : Playing => be2 t.left) x.playing ++ optItem 2 (fun t : Playing => be2 t.left) x.chime

/-- The slip counters cleared and the peak restarted (R163). -/
def Path.restart (x : Path) : Path :=
  { x with overflows := 0, underflows := 0, peak := if x.centring then 0 else x.distance }

/-- READ_INTERCOM (R163). -/
def readIntercomOwner : Owner := fun s =>
  done { s with intercom := { s.intercom with fr := s.intercom.fr.restart, rf := s.intercom.rf.restart } } s.intercom.bytes

/-- A path cleared, its volume kept (R164). -/
def Path.cleared (x : Path) (depth : Nat) : Path :=
  ⟨.closed, [], depth, false, 0, x.volume, 0, 0, 0, 0, 0⟩

/-- Intercom clear (R164). -/
def Intercom.clear (x : Intercom) (depth : Nat) : Intercom :=
  { x with fr := x.fr.cleared depth, rf := x.rf.cleared depth, playing := none, waiting := [], chime := none }.settlePaths depth

/-- INTERCOM_CLEAR (R164). -/
def intercomClearOwner : Owner := fun s => done { s with intercom := s.intercom.clear s.tariffs.config.depth } []

/-- A prompt joins the queue; the first begins at once (R160, R161). -/
def Intercom.post (x : Intercom) (tone : Nat) : Intercom :=
  match x.playing with
  | none => { x with playing := some (Playing.begin tone) }
  | some _ => { x with waiting := x.waiting ++ [tone] }

/-- POST_PROMPT (R160). -/
def postPromptOwner (tone : Byte) : Owner := fun s =>
  checked [(decide (tone.toNat ≤ 2), .range), (decide (s.intercom.prompts.length < 2), .full)] (fun s =>
    done { s with intercom := s.intercom.post tone.toNat } (be1 (s.intercom.prompts.length + 1))) s

/-- SET_MONITOR (R162). -/
def setMonitorOwner (select : Byte) : Owner := fun s =>
  match monitorOf select with
  | none => (s, .refuse .range)
  | some m => done { s with intercom := { s.intercom with monitor := m } } []

/-! ### The commands -/

/-- SET_TALK_MODE (R154). -/
def execSetTalkMode (p : PortId) (tag mode : Byte) (s : State) : Host.Outcome State Fault Refusal :=
  request p .setTalkMode tag (setTalkModeOwner mode) s

/-- SET_VOLUME (R157). -/
def execSetVolume (p : PortId) (tag path volume : Byte) (s : State) : Host.Outcome State Fault Refusal :=
  request p .setVolume tag (setVolumeOwner path volume) s

/-- READ_INTERCOM (R163). -/
def execReadIntercom (p : PortId) (tag : Byte) (s : State) : Host.Outcome State Fault Refusal :=
  request p .readIntercom tag readIntercomOwner s

/-- INTERCOM_CLEAR (R164). -/
def execIntercomClear (p : PortId) (tag : Byte) (s : State) : Host.Outcome State Fault Refusal :=
  request p .intercomClear tag intercomClearOwner s

/-- POST_PROMPT (R160). -/
def execPostPrompt (p : PortId) (tag tone : Byte) (s : State) : Host.Outcome State Fault Refusal :=
  request p .postPrompt tag (postPromptOwner tone) s

/-- SET_MONITOR (R162). -/
def execSetMonitor (p : PortId) (tag select : Byte) (s : State) : Host.Outcome State Fault Refusal :=
  request p .setMonitor tag (setMonitorOwner select) s

/-- FRONT_CODEC_FRAME (R151): taken while the part runs. -/
def execFrontCodecFrame (mic : Sample) (s : State) : Host.Outcome State Fault Refusal :=
  .next (whenRunning (fun s => s.frontFrame mic) s)

/-- REAR_CODEC_FRAME (R152): taken while the part runs. -/
def execRearCodecFrame (mic : Sample) (s : State) : Host.Outcome State Fault Refusal :=
  .next (whenRunning (fun s => s.rearFrame mic) s)

/-- A tone is playing its last sample. -/
def lastSample (t : Option Playing) : Bool :=
  match t with
  | some p => p.ends
  | none => false

/-- PROMPT_END (R161): the rear frame whose FR read gives a prompt's last sample. A frame that does not is no such event
(log entry 4). -/
def execPromptEnd (mic : Sample) (s : State) : Host.Outcome State Fault Refusal :=
  .next (if lastSample s.intercom.playing then whenRunning (fun s => s.rearFrame mic) s else s)

/-- CHIME_END (R159): the front frame whose RF read gives the chime's last sample (log entry 4). -/
def execChimeEnd (mic : Sample) (s : State) : Host.Outcome State Fault Refusal :=
  .next (if lastSample s.intercom.chime then whenRunning (fun s => s.frontFrame mic) s else s)

end Sys2Proof.Machine
end

