-- ==== Sys2Proof/Machine/JournalRequests.lean ====
section
/-! DEFINITION. The fleet's requests of the Journal: reading and acknowledging records and the unfiled list (R126 to R128), with the
layout of a record (10_ports, Journal record). -/

namespace Sys2Proof.Machine

/-! ### The layout of a record -/

/-- The kind byte of a record. -/
def RecordBody.kindByte : RecordBody → Byte
  | .hire _ => 1
  | .shift _ _ _ _ => 2
  | .lateApproval _ _ _ _ _ _ => 3
  | .activation _ => 4
  | .retentionLost => 5

/-- A payment of a HIRE record, 24 bytes: an absent route is 255 and an absent reference zeros. -/
def Payment.recordBytes (e : Payment) : List Byte :=
  [e.method.byte] ++ be4 e.amount ++ be4 e.tip
    ++ [match e.route with
        | some r => r.byte
        | none => 255]
    ++ paymentRefBytes (e.reference.getD 0) ++ [e.state.byte, flagByte e.late]

/-- The bytes of a HIRE record from 16 on. -/
def HireRecord.bytes (r : HireRecord) : List Byte :=
  [slotByte r.slot] ++ be2 r.number ++ be1 r.tariffId ++ be1 (bitsOf [r.reference.isSome, r.capped, r.unpaid])
    ++ bookingRefBytes (r.reference.getD 0) ++ r.startTime.bytes ++ r.stopTime.bytes ++ be4 r.metres ++ be2 r.steps ++ be4 r.flagFall
    ++ be4 r.metered ++ be4 r.tips ++ be1 r.extras.length ++ r.extras.flatMap (fun x => be1 x.1 ++ be1 x.2)
    ++ be1 r.payments.length ++ r.payments.flatMap Payment.recordBytes

/-- The changed ids of an ACTIVATION record: bit 0 for id 1 to bit 7 for id 8. -/
def changedByte (ids : List Nat) : Byte :=
  BitVec.ofNat 8 (bitsOf ((List.range 8).map (fun i => ids.contains (i + 1))))

/-- The bytes of a record from 16 on, by its kind. -/
def RecordBody.bytes : RecordBody → List Byte
  | .hire r => r.bytes
  | .shift driver openTime closeTime counters =>
    be2 driver ++ openTime.bytes ++ closeTime.bytes ++ counters.flatMap (fun c => be4 c.value)
      ++ be2 (bitsOf (counters.map Counter.mark))
  | .lateApproval sl number m amount tip ref =>
    [slotByte sl] ++ be2 number ++ [m.byte] ++ be4 amount ++ be4 tip ++ paymentRefBytes ref
  | .activation changed => [changedByte changed]
  | .retentionLost => []

/-- A whole record, its sixteen common bytes first. -/
def JournalRecord.bytes (seq : Nat) (r : JournalRecord) : List Byte :=
  be4 seq ++ [r.body.kindByte] ++ be1 (16 + r.body.bytes.length) ++ be2 r.shiftNumber ++ r.time.bytes ++ r.body.bytes

/-! ### READ_JOURNAL -/

/-- A record put in its place by sequence number. -/
def insertBySeq (x : Nat × JournalRecord) : List (Nat × JournalRecord) → List (Nat × JournalRecord)
  | [] => [x]
  | y :: rest => if x.1 ≤ y.1 then x :: y :: rest else y :: insertBySeq x rest

/-- The record in a slot with its number, when it is whole and unacknowledged. -/
def unackedRecord (acked : Nat) : Nat × SlotContent → Option (Nat × JournalRecord)
  | (_, .whole seq r) => if acked < seq then some (seq, r) else none
  | (_, .damaged) => none

/-- The unacknowledged records in order of sequence number; those in retired pages are given like any other (R126). -/
def Journal.offered (j : Journal) : List (Nat × JournalRecord) :=
  (j.store.filterMap (unackedRecord j.acked)).foldr insertBySeq []

/-- The eight page places of the status block; those not used are sent as 0 (log entry 38, DESIGN CHOICE). -/
def retiredBytes (ps : List Nat) : List Byte := ((ps ++ List.replicate 8 0).take 8).flatMap be1

/-- The journal status block of 23 bytes (R126, 10_ports Journal record); bits 4 to 7 of its state byte are 0 (log entry 38). Each count is
its low eight bits, which a filing queue of more than 255 records overruns (log entry 47, DESIGN CHOICE). -/
def State.journalStatus (s : State) : List Byte :=
  let j := s.journal
  be2 j.freeShown ++ be1 s.reserve ++ be4 j.newest ++ be4 j.acked
    ++ be1 (bitsOf [j.inFault, j.state == .fault .retiredList, j.writingOpen, j.low])
    ++ be1 j.retired.length ++ retiredBytes j.retired ++ be1 j.unfiled.length ++ be1 j.queue.length

/-- How many record bytes a frame holds beside its result code and record count (R177). -/
def frameRoom : Nat := 238

/-- How many record bytes the last frame holds beside the status block too (R177). -/
def lastFrameRoom : Nat := 215

/-- The records of a frame and those left over: as many as fit, at most four (R177). -/
def fillFrame (room : Nat) : Nat → List (List Byte) → List (List Byte) × List (List Byte)
  | 0, rs => ([], rs)
  | _ + 1, [] => ([], [])
  | n + 1, r :: rest =>
    if r.length ≤ room then
      let (taken, left) := fillFrame (room - r.length) n rest
      (r :: taken, left)
    else ([], r :: rest)

/-- The payload of one READ_JOURNAL frame. -/
def journalPayload (records : List (List Byte)) (tail : List Byte) : List Byte :=
  Code.ok.byte :: be1 records.length ++ records.flatten ++ tail

/-- The payloads of a READ_JOURNAL reply, packed frame by frame (R177; log entry 26, DEDUCED). Each frame takes a record, so the number
of records bounds the frames. -/
def journalPayloads (status : List Byte) : Nat → List (List Byte) → List (List Byte)
  | 0, _ => [journalPayload [] status]
  | n + 1, rs =>
    let (taken, left) := fillFrame frameRoom 4 rs
    if left.isEmpty && decide (taken.flatten.length ≤ lastFrameRoom) then [journalPayload taken status]
    else journalPayload taken [] :: journalPayloads status n left

/-- READ_JOURNAL (R126). -/
def readJournalOwner (count : Byte) : Owner := fun s =>
  checked [(decide (1 ≤ count.toNat ∧ count.toNat ≤ 64), .range)] (fun s =>
    let rs := (s.journal.offered.take count.toNat).map (fun x => x.2.bytes x.1)
    (s, ⟨false, journalPayloads s.journalStatus (rs.length + 1) rs⟩)) s

/-- ACK_JOURNAL (R127): RANGE beyond the newest written, nothing at or below the acknowledged number, else taken. -/
def ackJournalOwner (seq : Word) : Owner := fun s =>
  checked [(decide (seq.toNat ≤ s.journal.newest), .range)] (fun s =>
    if seq.toNat ≤ s.journal.acked then done s []
    else
      let t := { s with journal := { s.journal with acked := seq.toNat } }.updateLow
      done t (be2 t.journal.freeShown)) s

/-- READ_UNFILED (R128): each record in its own frame; an empty list is one frame that says so (log entry 27). -/
def readUnfiledOwner : Owner := fun s =>
  match s.journal.unfiled with
  | [] => (s, ⟨false, [[Code.ok.byte, 0]]⟩)
  | rs => (s, ⟨false, rs.map (fun r => Code.ok.byte :: 1 :: r.bytes 0)⟩)

/-- ACK_UNFILED (R128). -/
def ackUnfiledOwner (count : Byte) : Owner := fun s =>
  checked [(decide (1 ≤ count.toNat ∧ count.toNat ≤ 4 ∧ count.toNat ≤ s.journal.unfiled.length), .range)] (fun s =>
    done { s with journal := { s.journal with unfiled := s.journal.unfiled.drop count.toNat } } []) s

/-! ### The commands -/

/-- READ_JOURNAL (R126). -/
def execReadJournal (p : PortId) (tag count : Byte) (s : State) : Host.Outcome State Fault Refusal :=
  request p .readJournal tag (readJournalOwner count) s

/-- ACK_JOURNAL (R127). -/
def execAckJournal (p : PortId) (tag : Byte) (seq : Word) (s : State) : Host.Outcome State Fault Refusal :=
  request p .ackJournal tag (ackJournalOwner seq) s

/-- READ_UNFILED (R128). -/
def execReadUnfiled (p : PortId) (tag : Byte) (s : State) : Host.Outcome State Fault Refusal :=
  request p .readUnfiled tag readUnfiledOwner s

/-- ACK_UNFILED (R128). -/
def execAckUnfiled (p : PortId) (tag count : Byte) (s : State) : Host.Outcome State Fault Refusal :=
  request p .ackUnfiled tag (ackUnfiledOwner count) s

end Sys2Proof.Machine
end

