-- ==== Sys2Proof/Machine/PartClearOps.lean ====
section
/-! DEFINITION. Part clear and the journal recovery inside it (R130, R131, R192, R193), with the journal's verify events, at which
the filing queue may empty (R121, R122). -/

namespace Sys2Proof.Machine

/-! ### Completion -/

/-- A port at the completion of Part clear: notices, masks and snapshot at their power-on values without POWER_RESTORED; ALARM is kept in
the Fleet port's set while the alarm is ACTIVE; the framing state and the replies stand (R173, R193). -/
def Port.partCleared (x : Port) (p : PortId) (active : Bool) : Port :=
  { x with
    notices := if p = .fleet ∧ active = true then x.notices &&& NoticeKind.alarm.mask else 0
    enable := deliveredMask p
    stageMask := defaultStageMask p
    snapshot := none }

/-- The three ports at the completion of Part clear. -/
def Ports.partCleared (q : Ports) (active : Bool) : Ports :=
  ⟨q.console.partCleared .console active, q.payment.partCleared .payment active, q.fleet.partCleared .fleet active⟩

/-- The intercom at the completion of Part clear: its power-on values, the monitor select kept while the alarm is ACTIVE (R145,
R193); the samples last sent stand. The lines are taken as the last tick or start-up read them, also at a completion that is no tick (log
entry 41, DESIGN CHOICE). -/
def State.intercomPartCleared (s : State) : Intercom :=
  { Intercom.powerOn s.pins s.tariffs.config.depth (if s.alarm.state = AlarmState.active then s.intercom.monitor else MonitorSelect.off) with
    frontOut := s.intercom.frontOut
    rearOut := s.intercom.rearOut
    monitorOut := s.intercom.monitorOut }

/-- The completion of Part clear (R193). -/
def State.completePartClear (s : State) : State :=
  let s1 := { s with
    partClear := .idle
    tariffs := { s.tariffs with staging := s.tariffs.active, chain := Chain.cleared }
    intercom := s.intercomPartCleared
    ports := s.ports.partCleared (s.alarm.state == AlarmState.active)
    indicators := 0 }
  (s1.signPowerOn .auto).notify .fleet .clearDone

/-! ### Acceptance and progress -/

/-- The three conditions of the recovery (R130). -/
def Journal.recoveryDue (j : Journal) : Bool := j.inFault && j.acked == j.newest && j.unfiled.isEmpty

/-- CLEAR_PART (R192). -/
def clearPartOwner : Owner := fun s =>
  checked [
      (!s.storeBusy, .storeBusy),
      (s.shift.state == .closed, .shiftState),
      (s.alarm.state == .quiet, .notPermitted)] (fun s =>
    ({ s.closeChain with partClear := if s.journal.recoveryDue then .waiting else .plain }, .of .accepted [])) s

/-- Part clear goes on once the filing queue is empty: it completes, or its recovery, the conditions checked again, begins (R130,
R192). A record handed over between an acceptance with the queue empty and the next tick is waited for (log entry 22, DEDUCED). -/
def State.partClearOn (s : State) : State :=
  if s.journal.queue.isEmpty then
    match s.partClear with
    | .idle => s
    | .recovering => s
    | .plain => s.completePartClear
    | .waiting => if s.journal.recoveryDue then { s with partClear := .recovering } else s.completePartClear
  else s

/-- Part clear completes at the next tick (R192). -/
def State.clearCompletes (s : State) : Bool :=
  s.journal.queue.isEmpty && (s.partClear == .plain || (s.partClear == .waiting && !s.journal.recoveryDue))

/-! ### The recovery -/

/-- The slot of the record of a sequence number. -/
def slotOfSeq (seq : Nat) : JournalStore → Option Nat
  | [] => none
  | (i, .whole n _) :: rest => if n = seq then some i else slotOfSeq seq rest
  | (_, .damaged) :: rest => slotOfSeq seq rest

/-- The page that held the newest record; when no slot holds it, the page just behind the writer (log entry 22, DEDUCED). -/
def Journal.newestPage (j : Journal) : Nat :=
  match slotOfSeq j.newest j.store with
  | some i => i / 16
  | none => if 0 < j.writer.slot then j.writer.page else (j.writer.page + 255) % journalPages

/-- The journal when its recovery ends with the pages that failed the test (R130): every page is erased and holds nothing, a page that
failed the test among them (log entry 51, DEDUCED). -/
def Journal.recovered (j : Journal) (failed : List Nat) : Journal :=
  let retired := failed.take Config.retiredPlaces
  { j with
    store := []
    retired := retired
    state := if Config.retiredPlaces < failed.length then .fault .retiredList else .normal
    writer := freshPage retired j.newestPage }

/-- The recovery ends, and Part clear with it (R130, R192); nothing when none runs. -/
def State.recoveryEnd (s : State) (failed : List Nat) : State :=
  if s.partClear = .recovering then
    ({ s with journal := s.journal.recovered failed }.updateLow).completePartClear
  else s

/-- The recovery begins when it waits and the queue is empty (R130). -/
def State.recoveryStart (s : State) : State := if s.partClear = .waiting then s.partClearOn else s

/-! ### The commands -/

/-- CLEAR_PART (R192). -/
def execClearPart (p : PortId) (tag : Byte) (s : State) : Host.Outcome State Fault Refusal :=
  request p .clearPart tag clearPartOwner s

/-- JOURNAL_VERIFY_PASS (R121); the queue it empties lets Part clear go on. -/
def execJournalVerifyPass (s : State) : Host.Outcome State Fault Refusal :=
  .next (whenRunning (fun s => if s.journal.inFlight.isSome then s.verifyPass.partClearOn else s) s)

/-- JOURNAL_VERIFY_FAIL (R122); a record dropped for want of a slot may empty the queue (R124). -/
def execJournalVerifyFail (s : State) : Host.Outcome State Fault Refusal :=
  .next (whenRunning (fun s => if s.journal.inFlight.isSome then s.verifyFail.partClearOn else s) s)

/-- JOURNAL_RECOVERY_START (R130). -/
def execJournalRecoveryStart (s : State) : Host.Outcome State Fault Refusal := .next (whenRunning State.recoveryStart s)

/-- JOURNAL_RECOVERY_END (R130). -/
def execJournalRecoveryEnd (failed : List Nat) (s : State) : Host.Outcome State Fault Refusal :=
  .next (whenRunning (fun s => s.recoveryEnd failed) s)

end Sys2Proof.Machine
end

