-- ==== Sys2Proof/Machine/PortRequests.lean ====
section
/-! DEFINITION. The requests the Port Interface owns: indicators, notices, masks and NULL (R178, R182 to R184). -/

namespace Sys2Proof.Machine

/-! ### Indicators -/

/-- Each indicator whose enable bit is set takes its value bit (R184). -/
def indicatorsAfter (now enable value : BitVec 4) : BitVec 4 := (now &&& ~~~enable) ||| (value &&& enable)

/-- The four indicators as one mask byte of a reply, bit 0 DISPATCH to bit 3 ADVISORY, the order of R184's masks (log entry 11,
DEDUCED). -/
def indicatorByte (x : BitVec 4) : Byte := x.setWidth 8

/-- SET_INDICATORS (R184): bits 4 to 7 of each mask are not read. -/
def setIndicatorsOwner (enable value : Byte) : Owner := fun s =>
  let x := indicatorsAfter s.indicators (enable.setWidth 4) (value.setWidth 4)
  let s1 := { s with indicators := x }
  done (if x = s.indicators then s1 else s1.notify .console .indicator) [indicatorByte x]

/-- READ_INDICATORS (R184). -/
def readIndicatorsOwner : Owner := fun s => done s [indicatorByte s.indicators]

/-! ### Notices and masks -/

/-- ACK_NOTICES (R183): the set before and after. -/
def ackNoticesOwner (p : PortId) (mask : Word) : Owner := fun s =>
  let x := s.port p
  done (s.putPort p { x with notices := x.notices &&& ~~~mask }) (be4 x.notices.toNat ++ be4 (x.notices &&& ~~~mask).toNat)

/-- SET_NOTICE_MASK (R182): bits for kinds not delivered to the port, and bits above 17, are stored clear. -/
def setNoticeMaskOwner (p : PortId) (mask : Word) : Owner := fun s =>
  done (s.putPort p { s.port p with enable := mask &&& deliveredMask p }) (be4 (mask &&& deliveredMask p).toNat)

/-- SET_STAGE_MASK (R182): bit 7 is not read. -/
def setStageMaskOwner (p : PortId) (mask : Byte) : Owner := fun s =>
  done (s.putPort p { s.port p with stageMask := mask.setWidth 7 }) [(mask.setWidth 7).setWidth 8]

/-! ### The commands -/

/-- SET_INDICATORS (R184). -/
def execSetIndicators (p : PortId) (tag enable value : Byte) (s : State) : Host.Outcome State Fault Refusal :=
  request p .setIndicators tag (setIndicatorsOwner enable value) s

/-- READ_INDICATORS (R184). -/
def execReadIndicators (p : PortId) (tag : Byte) (s : State) : Host.Outcome State Fault Refusal :=
  request p .readIndicators tag readIndicatorsOwner s

/-- ACK_NOTICES (R183). -/
def execAckNotices (p : PortId) (tag : Byte) (mask : Word) (s : State) : Host.Outcome State Fault Refusal :=
  request p .ackNotices tag (ackNoticesOwner p mask) s

/-- SET_NOTICE_MASK (R182). -/
def execSetNoticeMask (p : PortId) (tag : Byte) (mask : Word) (s : State) : Host.Outcome State Fault Refusal :=
  request p .setNoticeMask tag (setNoticeMaskOwner p mask) s

/-- SET_STAGE_MASK (R182). -/
def execSetStageMask (p : PortId) (tag : Byte) (mask : Byte) (s : State) : Host.Outcome State Fault Refusal :=
  request p .setStageMask tag (setStageMaskOwner p mask) s

/-- NULL (R178). -/
def execNull (p : PortId) (tag : Byte) (s : State) : Host.Outcome State Fault Refusal := .next (admitNull p tag s)

end Sys2Proof.Machine
end

