-- ==== Sys2Proof/Machine/ShiftRequests.lean ====
section
/-! DEFINITION. The requests of Shift Accounting: opening, pooling, closing, reading and the snapshots (R96 to R115), and the end of
a totalizer write (R109). -/

namespace Sys2Proof.Machine

/-! ### Opening and closing -/

/-- The shift number after one is given (R98). -/
def shiftNumberAfter (n : Nat) : Nat := if n < 65535 then n + 1 else 1

/-- The shift record as an open leaves it (R98). -/
def ShiftAccounting.opening (x : ShiftAccounting) (driver : Nat) (now : ClockTime) (c : ConfigRecord) : ShiftAccounting :=
  { x with
    number := shiftNumberAfter x.number
    driver := some driver
    openTime := some now
    closeTime := none
    state := .opened
    summary := false
    counters := freshCounters
    ceiling := c.ceiling
    pooling := c.pooling
    offlineTotal := 0 }

/-- The shift opened (R98). -/
def State.openShift (s : State) (driver : Nat) : State :=
  { s with
    shift := s.shift.opening driver s.clock s.tariffs.config
    nextHire := 1
    vacantRem := 0
    sign := { s.sign with override := .auto } }.rederive

/-- OPEN_SHIFT (R97, R98). -/
def openShiftOwner (driver : Half) : Owner := fun s =>
  checked [
      (s.shift.state == .closed, .shiftState),
      (decide (1 ≤ driver.toNat), .range),
      (!s.storeBusy, .storeBusy),
      (s.sign.test.isNone, .shiftState),
      (s.tariffs.active.hasTariff, .noTariff),
      (!s.journal.inFault, .journalFault),
      (decide (4 ≤ s.journal.free), .full)] (fun s =>
    done (s.openShift driver.toNat) (be2 (shiftNumberAfter s.shift.number))) s

/-- A BOOKED slot emptied by CLOSE_SHIFT (R9). -/
def State.emptyBooked (s : State) (sl : SlotId) : State :=
  if (s.hire sl).stage = .booked then s.enterStage sl Hire.cleared else s

/-- The shift leaves OPEN (R100). -/
def State.closeShift (s : State) : State :=
  let s1 := { s with shift := { s.shift with state := .closing, closeTime := some s.clock } }
  let s2 := ((s1.emptyBooked .a).emptyBooked .b).emptyBooked .c
  (s2.rederive.beginSummary).fileOn

/-- CLOSE_SHIFT (R100): on a shift that is not OPEN it changes nothing. -/
def closeShiftOwner : Owner := fun s => if s.shift.state = .opened then done s.closeShift [] else done s []

/-! ### Pooling -/

/-- SET_POOLING (R99): a value outside its encoding is RANGE before the first check (R185). -/
def setPoolingOwner (pooling : Byte) : Owner := fun s =>
  match onOff pooling with
  | none => (s, .refuse .range)
  | some on =>
    checked [(s.shift.state == .opened, .shiftState)] (fun s =>
      done { s with shift := { s.shift with pooling := on } }.rederive []) s

/-! ### Reading -/

/-- OK 0, BEHIND 1, LOST 2 (R109, R111, R112). -/
def TotalsStatus.byte : TotalsStatus → Byte
  | .ok => 0
  | .behind => 1
  | .lost => 2

/-- What READ_SHIFT carries (R112). R110 says READ_SHIFT reports the totalizers' working values and the list of R112 holds none: the list
is followed, and a snapshot carries them (log entry 36, DEDUCED). Pooling is sent as SET_POOLING's row of R185 has it, 0 off and 1 on
(log entry 44, DEDUCED). -/
def ShiftAccounting.bytes (x : ShiftAccounting) : List Byte :=
  [x.state.byte] ++ be2 x.number ++ optItem 2 be2 x.driver ++ [flagByte x.pooling] ++ be4 x.ceiling ++ be4 x.offlineTotal
    ++ optItem 8 ClockTime.bytes x.openTime ++ optItem 8 ClockTime.bytes x.closeTime ++ [flagByte x.summary, x.totalsStatus.byte]

/-- READ_SHIFT (R112). -/
def readShiftOwner : Owner := fun s => done s s.shift.bytes

/-- The snapshot that a latch takes (R113). -/
def ShiftAccounting.latched (x : ShiftAccounting) : Snapshot := ⟨x.counters, x.totals, x.number, x.state⟩

/-- A snapshot's shift number and state, as replies carry them (R113, R114). -/
def Snapshot.labels (x : Snapshot) : List Byte := be2 x.number ++ [x.state.byte]

/-- LATCH_COUNTERS (R113). -/
def latchCountersOwner (p : PortId) : Owner := fun s =>
  done (s.putPort p { s.port p with snapshot := some s.shift.latched }) s.shift.latched.labels

/-- A lifetime totalizer by its place, 0..4 (R108). -/
def Totals.at (t : Totals) : Nat → Nat
  | 0 => t.totalMetres
  | 1 => t.hiredMetres
  | 2 => t.hires
  | 3 => t.steps
  | _ => t.fare

/-- The value an index reads: a counter with its mark, or a totalizer (R114). -/
def Snapshot.value (x : Snapshot) (index : Nat) : List Byte :=
  if index < 15 then
    let c := x.counters.getD index ⟨0, false⟩
    be4 c.value ++ [flagByte c.mark]
  else be4 (x.totals.at (index - 15))

/-- READ_COUNTER (R114): NOT_LATCHED is the one owner's reply with the FAULT flag (R177). -/
def readCounterOwner (p : PortId) (index : Byte) : Owner := fun s =>
  match (s.port p).snapshot with
  | none => (s, ⟨true, [[Code.notLatched.byte]]⟩)
  | some x =>
    if index.toNat < 20 then done s (x.value index.toNat ++ x.labels) else (s, .of .range x.labels)

/-! ### The end of a totalizer write -/

/-- The write in flight has ended: a remembered request begins a new one (R109). -/
def ShiftAccounting.nextWrite (x : ShiftAccounting) : ShiftAccounting :=
  if x.remembered then x.beginTotals else { x with totalsWrite := none }

/-- The copy verifies and is marked current; a later success ends BEHIND and LOST (R109, R111). -/
def ShiftAccounting.writeDone (x : ShiftAccounting) (w : TotalsWrite) : ShiftAccounting :=
  { x with totalsSection := x.totalsSection.write w.values, totalsStatus := .ok }.nextWrite

/-- The copy fails to verify: made again, or after three failures the write ends BEHIND (R109); LOST stands until a write succeeds
(R111; log entry 21). -/
def ShiftAccounting.writeFailed (x : ShiftAccounting) (w : TotalsWrite) : ShiftAccounting :=
  if w.failures < 2 then { x with totalsWrite := some { w with failures := w.failures + 1 } }
  else { x with totalsStatus := if x.totalsStatus = TotalsStatus.lost then TotalsStatus.lost else TotalsStatus.behind }.nextWrite

/-- Shift Accounting after a totalizer write ends as `f` says; nothing when none is in flight. -/
def State.onTotalsWrite (f : ShiftAccounting → TotalsWrite → ShiftAccounting) (s : State) : State :=
  match s.shift.totalsWrite with
  | some w => { s with shift := f s.shift w }
  | none => s

/-! ### The commands -/

/-- OPEN_SHIFT (R97, R98). -/
def execOpenShift (p : PortId) (tag : Byte) (driver : Half) (s : State) : Host.Outcome State Fault Refusal :=
  request p .openShift tag (openShiftOwner driver) s

/-- CLOSE_SHIFT (R100). -/
def execCloseShift (p : PortId) (tag : Byte) (s : State) : Host.Outcome State Fault Refusal :=
  request p .closeShift tag closeShiftOwner s

/-- SET_POOLING (R99). -/
def execSetPooling (p : PortId) (tag pooling : Byte) (s : State) : Host.Outcome State Fault Refusal :=
  request p .setPooling tag (setPoolingOwner pooling) s

/-- READ_SHIFT (R112). -/
def execReadShift (p : PortId) (tag : Byte) (s : State) : Host.Outcome State Fault Refusal :=
  request p .readShift tag readShiftOwner s

/-- LATCH_COUNTERS (R113). -/
def execLatchCounters (p : PortId) (tag : Byte) (s : State) : Host.Outcome State Fault Refusal :=
  request p .latchCounters tag (latchCountersOwner p) s

/-- READ_COUNTER (R114). -/
def execReadCounter (p : PortId) (tag index : Byte) (s : State) : Host.Outcome State Fault Refusal :=
  request p .readCounter tag (readCounterOwner p index) s

/-- TOTALIZER_WRITE_COMPLETE (R109). -/
def execTotalizerWriteComplete (s : State) : Host.Outcome State Fault Refusal :=
  .next (whenRunning (State.onTotalsWrite ShiftAccounting.writeDone) s)

/-- TOTALIZER_WRITE_FAIL (R109). -/
def execTotalizerWriteFail (s : State) : Host.Outcome State Fault Refusal :=
  .next (whenRunning (State.onTotalsWrite ShiftAccounting.writeFailed) s)

end Sys2Proof.Machine
end

