-- ==== Sys2Proof/Machine/StartUpOps.lean ====
section
/-! DEFINITION. The power-fail warning, the freeze and the start-up (R188 to R191), with what each block takes up or resets (R25,
R26, R52, R104, R111, R119, R129, R171). -/

namespace Sys2Proof.Machine

/-! ### The warning and the freeze -/

/-- The speaker and monitor slots carry 0 from the warning on (R145, R190). -/
def Intercom.mute (x : Intercom) : Intercom := { x with frontOut := 0, rearOut := 0, monitorOut := 0 }

/-- The power-fail warning (R190): taken while the part runs. -/
def State.warned (s : State) : State :=
  match s.power with
  | .running => { s with power := .failing, intercom := s.intercom.mute }
  | _ => s

/-- The freeze (R188, R190): the check word and the closed mark are written. -/
def State.freeze (s : State) : State :=
  match s.power with
  | .failing => { s with power := .frozen, checkWord := true, closedMark := true }
  | _ => s

/-! ### Step 1: the store -/

/-- A section after a write in flight was cut off: its mark was moved or it was not (R62, R70, R110). -/
def Section.afterLoss {α : Type} (x : Section α) (writing : Option α) (moved : Bool) : Section α :=
  match writing with
  | some v => if moved then x.write v else x
  | none => x

/-- What a section loads: none when it was never written or its check is bad (R189). -/
def Section.load {α : Type} (x : Section α) (good : Bool) : Option α := if good then x.current else none

/-- The Tariff Store after its sections are loaded, its working memory at power-on (R51, R59, R62, R63, R71). -/
def TariffStore.loaded (x : TariffStore) (u : StartUp) : TariffStore :=
  let ts := x.tariffSection.afterLoss x.activation u.tariffMarked
  let cs := x.configSection.afterLoss (x.configWrite.map (fun _ => x.config)) u.configMarked
  let active := (ts.load u.tariffGood).getD TariffSet.blank
  { active := active
    staging := active
    tariffSection := ts
    activation := none
    activationOutcome := .noneYet
    config := (cs.load u.configGood).getD ConfigRecord.lost
    configSection := cs
    configWrite := none
    configBehind := false
    chain := Chain.cleared }

/-- The tariff section loaded bad, or never written (R51, R52). -/
def TariffStore.tariffBad (x : TariffStore) (u : StartUp) : Bool :=
  ((x.tariffSection.afterLoss x.activation u.tariffMarked).load u.tariffGood).isNone

/-- The configuration section loaded bad (R52). -/
def TariffStore.configBad (x : TariffStore) (u : StartUp) : Bool :=
  ((x.configSection.afterLoss (x.configWrite.map (fun _ => x.config)) u.configMarked).load u.configGood).isNone

/-- The totalizer section at a start-up; no write is in flight and none is remembered (R109, R110). -/
def ShiftAccounting.storeLoaded (x : ShiftAccounting) (u : StartUp) : ShiftAccounting :=
  { x with
    totalsSection := x.totalsSection.afterLoss (x.totalsWrite.map TotalsWrite.values) u.totalsMarked
    totalsWrite := none
    remembered := false }

/-! ### Step 3: the retained state taken up -/

/-- A hire's metre remainder brought below k, the metres drawn added to its hire metres (R52). -/
def Hire.remainderBelow (k : Nat) (h : Hire) : Hire :=
  { h with metres := satAdd h.metres (h.metreRem / k), metreRem := h.metreRem % k }

/-- The table with a change made to every record. -/
def HireTable.map (t : HireTable) (f : Hire → Hire) : HireTable := ⟨f t.a, f t.b, f t.c⟩

/-- A hire aboard at a start-up that finds the tariff section bad: it is charged no step any more (R52). -/
def Hire.withoutTariff (h : Hire) : Hire := { h with unmetered := h.unmetered || !(h.stage == .free || h.stage == .booked) }

/-- The vacant remainder brought below k while a shift is open or closing (R52). -/
def State.vacantBelow (s : State) : State :=
  let k := s.tariffs.config.k
  if s.shift.state = .closed then s
  else { s with vacantRem := s.vacantRem % k }.count .vacantMetres (s.vacantRem / k)

/-- Every metre remainder brought below the k of R59 (R52). -/
def State.remaindersBelow (s : State) : State :=
  let k := s.tariffs.config.k
  let s1 := { s with
    hires := s.hires.map (Hire.remainderBelow k)
    odoRem := s.odoRem % k
    shift := { s.shift with totals := { s.shift.totals with totalMetres := wrapAdd s.shift.totals.totalMetres (s.odoRem / k) } } }
  s1.vacantBelow

/-- A hire at a start-up with the retention memory intact: a running hire is SUSPENDED with reason POWER, a STOPPED one loses its claim
and its PENDING entries (R25, R26). -/
def Hire.restored (h : Hire) : Hire :=
  match h.stage with
  | .engaged => { h with stage := .suspended, suspendReason := some .power, resumeStage := some .engaged }
  | .metering => { h with stage := .suspended, suspendReason := some .power, resumeStage := some .metering }
  | .stopped => h.released
  | _ => h

/-- The hires restored, with one power interruption when one was running, and the settlement checks (R25, R26). -/
def State.restoreHires (s : State) : State :=
  let s1 := { s with hires := s.hires.map Hire.restored }
  let s2 := if s.hires.running = 0 then s1 else s1.count .powerInterruptions 1
  ((s2.settle .a).settle .b).settle .c

/-- The pages an interrupted recovery had erased hold nothing (R131). The page whose erasure or test was under way reads as one of these or
as it was, and never damaged (log entry 53, DESIGN CHOICE). -/
def State.eraseLost (s : State) (erased : List Nat) : State :=
  if s.partClear = .recovering then
    { s with journal := { s.journal with store := s.journal.store.filter (fun x => !(erased.contains (x.1 / 16))) } }
  else s

/-- A totalizer write is asked for with none in flight and none remembered (R109, R111). -/
def ShiftAccounting.taken (x : ShiftAccounting) : ShiftAccounting := { x with totalsStatus := .ok }.beginTotals

/-- The retained state taken up (R191, step 3). The filing at the head stays in flight and its slot is read back (R129). The
remainders are brought below k when the configuration section is bad, as R52 says; when it is good but holds an older k (R62), they stand
as they are (log entry 37, DESIGN CHOICE). The totalizer write of R111 begins after the metres drawn from the odometer remainder have
joined total metres, and before the filing is taken up (log entry 45, DEDUCED). -/
def State.takeUp (s : State) (u : StartUp) (configBad tariffBad : Bool) : State :=
  let s0 := { (s.eraseLost u.erased) with partClear := .idle }
  let s1 := if tariffBad then { s0 with hires := s0.hires.map Hire.withoutTariff } else s0
  let s2 := if configBad then s1.remaindersBelow else s1
  let s3 := s2.restoreHires
  ({ s3 with shift := s3.shift.taken }).fileOn

/-! ### Step 4: the retention memory lost -/

/-- The slot being programmed when power was lost, as it reads now (R119, R129). -/
def storeAfterLoss (j : Journal) (r : SlotReading) : JournalStore :=
  match j.inFlight, j.queue with
  | some f, x :: _ =>
    match r with
    | .untouched => j.store
    | .empty => j.store.filter (fun y => y.1 != f.place.index)
    | .whole => slotWrite j.store f.place.index (.whole f.seq x)
    | .damaged => slotWrite j.store f.place.index .damaged
  | _, _ => j.store

/-- The pages that hold a damaged slot, in order of page number (R119). -/
def damagedPages (st : JournalStore) : List Nat :=
  (List.range journalPages).filter (fun p => st.any (fun x => x.1 / 16 == p && x.2 == .damaged))

/-- The sequence number of a whole record. -/
def SlotContent.seq? : SlotContent → Option Nat
  | .whole n _ => some n
  | .damaged => none

/-- The whole record with the greatest sequence number, with its slot (R119). -/
def newestWhole : JournalStore → Option (Nat × Nat)
  | [] => none
  | (i, .whole n _) :: rest =>
    match newestWhole rest with
    | some (i', n') => if n ≤ n' then some (i', n') else some (i, n)
    | none => some (i, n)
  | (_, .damaged) :: rest => newestWhole rest

/-- The smallest sequence number among the whole records. -/
def oldestWhole : JournalStore → Option Nat
  | [] => none
  | (_, .whole n _) :: rest =>
    match oldestWhole rest with
    | some m => some (min n m)
    | none => some n
  | (_, .damaged) :: rest => oldestWhole rest

/-- The slot after a slot, or slot 0 of the following page not retired when that slot lies in a retired page (R119). -/
def writerAfter (retired : List Nat) (i : Nat) : Place :=
  if i % 16 < 15 ∧ !(retired.contains (i / 16)) then ⟨i / 16, i % 16 + 1⟩ else freshPage retired (i / 16)

/-- The Journal's bookkeeping rebuilt from the slots (R119). The low mark is worked out once the configuration is loaded. Where the
smallest number found is 0, a number that only the free value of log entry 1 can give, the acknowledged number is 0 (log entry 48, DESIGN
CHOICE). -/
def rebuiltJournal (st : JournalStore) (draws : Nat) : Journal :=
  let damaged := damagedPages st
  let retired := damaged.take Config.retiredPlaces
  { store := st
    writer := match newestWhole st with
      | some (i, _) => writerAfter retired i
      | none => freshPage retired 255
    nextSeq := match newestWhole st with
      | some (_, n) => sequenceAfter n draws
      | none => 1
    acked := match oldestWhole st with
      | some n => n - 1
      | none => 0
    retired := retired
    state := if Config.retiredPlaces < damaged.length then .fault .retiredList else .normal
    low := false
    queue := []
    inFlight := none
    unfiled := [] }

/-- A value was drawn for the number after the last (log entry 1). -/
def drawsAfterRebuild (st : JournalStore) (draws : Nat) : Nat :=
  match newestWhole st with
  | some (_, n) => if n < 4294967295 then draws else draws + 1
  | none => draws

/-- Shift Accounting after a loss of the retention memory: the record of R96, the totalizers from their section, or 0 and LOST
(R111). -/
def ShiftAccounting.lost (x : ShiftAccounting) (u : StartUp) : ShiftAccounting :=
  let sec := x.totalsSection
  { state := .closed
    number := 0
    driver := none
    pooling := false
    ceiling := 0
    offlineTotal := 0
    openTime := none
    closeTime := none
    summary := false
    counters := freshCounters
    totals := (sec.load u.totalsGood).getD ⟨0, 0, 0, 0, 0⟩
    totalsSection := sec
    totalsWrite := none
    remembered := false
    gained := 0
    totalsStatus := if (sec.load u.totalsGood).isSome then .ok else .lost }

/-- Every retained item at the value its rule gives for a bad memory, and RETENTION_LOST handed over (R191, step 4). -/
def State.loseRetained (s : State) (u : StartUp) : State :=
  let t := s.eraseLost u.erased
  let st := storeAfterLoss t.journal u.slot
  let s1 := { t with
    partClear := .idle
    timeBase := 0
    clock := ClockTime.first
    clockStatus := .unset
    hires := ⟨Hire.cleared, Hire.cleared, Hire.cleared⟩
    nextHire := 1
    vacantRem := 0
    odoRem := 0
    shift := s.shift.lost u
    journal := rebuiltJournal st s.draws
    draws := drawsAfterRebuild st s.draws
    alarm := { s.alarm with state := .quiet, log := [] }
    sign := { s.sign with override := .auto } }
  ((s1.updateLow).handOver .retentionLost).fileOn

/-! ### Step 5: working memory -/

/-- A port at power-on (R173). -/
def Port.powerOn (p : PortId) (active : Bool) : Port :=
  let x := Port.reset (deliveredMask p) (defaultStageMask p)
  if p = .fleet ∧ active then x.add .alarm else x

/-- The ports at power-on (R173, R171). -/
def Ports.powerOn (active : Bool) : Ports :=
  ⟨Port.powerOn .console active, Port.powerOn .payment active, Port.powerOn .fleet active⟩

/-- The alarm's working memory at power-on (R165). -/
def Alarm.powerOn (x : Alarm) : Alarm := { x with armed := true, pressRun := 0, releaseRun := 0 }

/-- Every block's working memory at its power-on values, and the part running (R191, steps 5 and 6). -/
def State.workingMemory (s : State) : State :=
  { s with
    alarm := s.alarm.powerOn
    ports := Ports.powerOn (s.alarm.state == AlarmState.active)
    indicators := 0
    intercom := Intercom.powerOn s.pins s.tariffs.config.depth .off
    closedMark := false
    checkWord := false
    power := .running }.signPowerOn s.sign.override

/-- The start-up (R191). A write in flight that had not moved its mark is gone; what it was is read before the sections are
loaded. With the retention memory intact the low mark stands as it stood (R119), save that a low-water level loaded which is not the one
held has it worked out afresh (R125; log entry 46, DEDUCED). -/
def State.startUp (s : State) (intact : Bool) (u : StartUp) : State :=
  let s1 := { s with pins := u.lines, tariffs := s.tariffs.loaded u, shift := s.shift.storeLoaded u }
  let s2 := if intact then (s1.updateLowFrom s.tariffs.config.lowWater).takeUp u (s.tariffs.configBad u) (s.tariffs.tariffBad u) else s1.loseRetained u
  s2.workingMemory

/-- The retention memory is intact at a power-on: the closed mark is present and the check word agrees (R188). -/
def State.intactAt (s : State) (u : StartUp) : Bool := s.closedMark && s.checkWord && u.retentionGood

/-! ### The commands -/

/-- POWER_FAIL_WARNING (R190). -/
def execPowerFailWarning (s : State) : Host.Outcome State Fault Refusal := .next s.warned

/-- FREEZE (R190). -/
def execFreeze (s : State) : Host.Outcome State Fault Refusal := .next s.freeze

/-- FREEZE_EXIT (R190): only a frozen part leaves a freeze, and it finds the retention memory intact. -/
def execFreezeExit (u : StartUp) (s : State) : Host.Outcome State Fault Refusal :=
  .next (match s.power with
    | .frozen => s.startUp true u
    | _ => s)

/-- POWER_ON (R191): the supply failed and returned, in whatever phase it failed. -/
def execPowerOn (u : StartUp) (s : State) : Host.Outcome State Fault Refusal := .next (s.startUp (s.intactAt u) u)

end Sys2Proof.Machine
end

