-- ==== Sys2Proof/Machine/TariffRequests.lean ====
section
/-! DEFINITION. The requests of the Tariff Store and the Time Base: load and compare chains, activation, reading, the configuration
and the clock (R51 to R71, R187), and the ends of configuration writes and activations. -/

namespace Sys2Proof.Machine

/-! ### Chains -/

/-- A place of a set replaced. -/
def TariffSet.putTariff (t : TariffSet) (id : Nat) (x : Option Tariff) : TariffSet := { t with tariffs := t.tariffs.set (id - 1) x }

/-- A calendar place replaced. -/
def TariffSet.putEntry (t : TariffSet) (i : Nat) (x : Option CalendarEntry) : TariffSet := { t with calendar := t.calendar.set i x }

/-- An extras place replaced. -/
def TariffSet.putExtra (t : TariffSet) (id : Nat) (x : Option ExtraEntry) : TariffSet := { t with extras := t.extras.set (id - 1) x }

/-- The staging set after a valid LOAD block; a withdrawal of an empty place is NO_SUCH (R64). -/
def applyBlock (t : TariffSet) : Block → Except Code TariffSet
  | .tariff id x => .ok (t.putTariff id (some x))
  | .calendar i x => .ok (t.putEntry i (some x))
  | .extra id x => .ok (t.putExtra id (some x))
  | .withdrawTariff id => if (t.tariff id).isSome then .ok (t.putTariff id none) else .error .noSuch
  | .withdrawCalendar i => if (t.entry i).isSome then .ok (t.putEntry i none) else .error .noSuch
  | .withdrawExtra id => if (t.extra id).isSome then .ok (t.putExtra id none) else .error .noSuch
  | .clearStaging => .ok TariffSet.blank

/-- A valid COMPARE block differs from the staging set (R67). -/
def blockDiffers (t : TariffSet) : Block → Bool
  | .tariff id x => t.tariff id != some x
  | .calendar i x => t.entry i != some x
  | .extra id x => t.extra id != some x
  | .withdrawTariff id => (t.tariff id).isSome
  | .withdrawCalendar i => (t.entry i).isSome
  | .withdrawExtra id => (t.extra id).isSome
  | .clearStaging => t.hasAny

/-- The chain with one more block of its kind counted (R63). -/
def Chain.begun (c : Chain) (kind : ChainKind) : Chain := { c with kind := some kind, blocks := c.blocks + 1 }

/-- The chain after a block is answered SKIPPED (R65). -/
def Chain.skip (c : Chain) : Chain := { c with skipped := c.skipped + 1 }

/-- The chain after a block is answered OK. -/
def Chain.succeed (c : Chain) : Chain := { c with ok := c.ok + 1 }

/-- The chain after a block fails: with stop-on-error the stopped flag is set (R65). -/
def Chain.fail (c : Chain) (stop : Bool) : Chain := { c with failed := c.failed + 1, stopped := c.stopped || stop }

/-- The present block differs: the first such is recorded (R67). -/
def Chain.differ (c : Chain) : Chain := { c with firstDiff := some (c.firstDiff.getD c.blocks) }

/-- The tallies (R64). No rule gives a chain's counts a range: they are held unbounded and each is sent in four bytes (log entry 32,
DESIGN CHOICE). -/
def Chain.tallies (c : Chain) : List Byte := be4 c.ok ++ be4 c.failed ++ be4 c.skipped

/-- What the closing block of a LOAD chain carries (R64). -/
def Chain.loadResult (c : Chain) : List Byte := c.tallies

/-- What the closing block of a COMPARE chain carries: the first differing block and how many followed, or the tallies (R67). -/
def Chain.compareResult (c : Chain) : List Byte :=
  let same := if c.firstDiff.isSome then none else some ()
  optItem 4 be4 c.firstDiff ++ optItem 4 (fun n => be4 (c.blocks - n)) c.firstDiff
    ++ optItem 4 (fun _ => be4 c.ok) same ++ optItem 4 (fun _ => be4 c.failed) same ++ optItem 4 (fun _ => be4 c.skipped) same

/-- The answer to a block: the chain is kept, or closed with its result when more-follows is clear (R63). -/
def answerBlock (pl : List Byte) (c : Chain) (code : Code) (result : List Byte) : Owner := fun s =>
  if moreFollows pl then ({ s with tariffs := { s.tariffs with chain := c } }, .of code [])
  else (s.closeChain, .of code result)

/-- A LOAD block taken into a chain that has counted it (R64, R65). -/
def loadBlock (pl : List Byte) (c : Chain) : Owner := fun s =>
  if c.stopped then answerBlock pl c.skip .skipped c.skip.loadResult s
  else match (readBlock pl).bind (applyBlock s.tariffs.staging) with
    | .ok t =>
      answerBlock pl c.succeed .ok c.succeed.loadResult { s with tariffs := { s.tariffs with staging := t } }
    | .error code => answerBlock pl (c.fail (stopOnError pl)) code (c.fail (stopOnError pl)).loadResult s

/-- LOAD (R63 to R66). -/
def loadOwner (pl : List Byte) : Owner := fun s =>
  checked [
      (s.tariffs.activation.isNone && s.partClear == .idle, .storeBusy),
      (s.tariffs.chain.kind != some .compare, .notPermitted)] (loadBlock pl (s.tariffs.chain.begun .load)) s

/-- The chain after a valid COMPARE block. -/
def Chain.compared (c : Chain) (differs : Bool) : Chain := if differs then c.succeed.differ else c.succeed

/-- A COMPARE block taken into a chain that has counted it (R67). -/
def compareBlock (pl : List Byte) (c : Chain) : Owner := fun s =>
  if c.stopped then answerBlock pl c.skip .skipped c.skip.compareResult s
  else match readBlock pl with
    | .ok b =>
      let d := c.compared (blockDiffers s.tariffs.staging b)
      answerBlock pl d .ok d.compareResult s
    | .error code =>
      let d := (c.fail (stopOnError pl)).differ
      answerBlock pl d code d.compareResult s

/-- COMPARE (R66, R67). -/
def compareOwner (pl : List Byte) : Owner := fun s =>
  checked [(s.tariffs.chain.kind != some .load, .notPermitted)] (compareBlock pl (s.tariffs.chain.begun .compare)) s

/-- The next state of a LOAD or COMPARE frame: one with a payload above 240 bytes is malformed (R175). -/
def requestBlock (p : PortId) (k : Kind) (tag : Byte) (pl : List Byte) (owner : Owner) (s : State) :
    Host.Outcome State Fault Refusal :=
  if pl.length ≤ maxPayload then request p k tag owner s
  else .next (match s.power with
    | .frozen => s
    | _ => s.refuse p tag .frameCheck)

/-! ### Activation -/

/-- ACTIVATE (R68). -/
def activateOwner : Owner := fun s =>
  checked [
      (!s.storeBusy, .storeBusy),
      (s.shift.state == .closed, .shiftState),
      (s.tariffs.chain.kind.isNone, .notPermitted)] (fun s =>
    ({ s with tariffs := { s.tariffs with activation := some s.tariffs.staging } }, .of .accepted [])) s

/-- The tariff ids whose place changed between two sets (R69). -/
def changedIds (old new : TariffSet) : List Nat :=
  (List.range 8).filterMap (fun i => if old.tariff (i + 1) = new.tariff (i + 1) then none else some (i + 1))

/-- The activation of a set completes (R69). -/
def State.activated (s : State) (new : TariffSet) : State :=
  let s1 := { s with tariffs := { s.tariffs with
    active := new
    tariffSection := s.tariffs.tariffSection.write new
    activation := none
    activationOutcome := .done } }
  (((s1.handOver (.activation (changedIds s.tariffs.active new))).notify .fleet .activationDone)).fileOn

/-- The mark of the new copy is made (R69); nothing when no activation is in flight. -/
def State.activationDone (s : State) : State :=
  match s.tariffs.activation with
  | some new => s.activated new
  | none => s

/-- A page of the copy fails to verify (R69). -/
def State.activationFailed (s : State) : State :=
  if s.tariffs.activation.isSome then
    { s with tariffs := { s.tariffs with activation := none, activationOutcome := .failed } }.notify .fleet .activationDone
  else s

/-! ### Configuration -/

/-- The nth field of R59 is present. -/
def hasField (f : ConfigFields) (n : Nat) : Bool := f.presence.getLsbD (n - 1)

/-- A number within bounds. -/
def within (lo hi n : Nat) : Bool := lo ≤ n && n ≤ hi

/-- Every present field lies in its range (R59, R60). -/
def fieldsInRange (f : ConfigFields) : Bool :=
  (!hasField f 1 || within 400 30000 f.k.toNat)
    && (!hasField f 2 || within 30 600 f.claimTimeout.toNat)
    && (!hasField f 3 || within 20 300 f.paymentTimeout.toNat)
    && (!hasField f 4 || within 0 10000000 f.ceiling.toNat)
    && (!hasField f 5 || (onOff f.pooling).isSome)
    && (!hasField f 6 || within 16 1024 f.lowWater.toNat)
    && (!hasField f 7 || f.depth == 32 || f.depth == 64 || f.depth == 128)
    && (!hasField f 8 || within 1 15 f.nightLevel.toNat)

/-- The record with the present fields written (R60). -/
def ConfigRecord.updated (c : ConfigRecord) (f : ConfigFields) : ConfigRecord where
  k := if hasField f 1 then f.k.toNat else c.k
  claimTimeout := if hasField f 2 then f.claimTimeout.toNat else c.claimTimeout
  paymentTimeout := if hasField f 3 then f.paymentTimeout.toNat else c.paymentTimeout
  ceiling := if hasField f 4 then f.ceiling.toNat else c.ceiling
  pooling := if hasField f 5 then (onOff f.pooling).getD c.pooling else c.pooling
  lowWater := if hasField f 6 then f.lowWater.toNat else c.lowWater
  depth := if hasField f 7 then f.depth.toNat else c.depth
  nightLevel := if hasField f 8 then f.nightLevel.toNat else c.nightLevel

/-- A change of k is asked for (R60). -/
def changesK (s : State) (f : ConfigFields) : Bool := hasField f 1 && f.k.toNat != s.tariffs.config.k

/-- The record takes new values and a write to the store begins (R60, R61, R62): a change of k drops the odometer remainder, a
changed low-water level has the low mark worked out afresh, and a new night level is a new full level by night. -/
def State.configured (s : State) (f : ConfigFields) : State :=
  let s1 := { s with
    tariffs := { s.tariffs with config := s.tariffs.config.updated f, configWrite := some 0 }
    odoRem := if changesK s f then 0 else s.odoRem }
  let s2 := s1.updateLowFrom s.tariffs.config.lowWater
  if s2.fullLevel = s.fullLevel then s2 else s2.fullLevelChanged

/-- SET_CONFIG (R60); the seal line is held as it was sampled with the frame. -/
def setConfigOwner (f : ConfigFields) : Owner := fun s =>
  checked [
      (!s.storeBusy, .storeBusy),
      (fieldsInRange f, .range),
      (!changesK s f || s.shift.state == .closed, .shiftState),
      (!changesK s f || s.pins.sealed, .sealed)] (fun s => done (s.configured f) []) s

/-- A configuration write completes (R62); nothing when none is in flight. -/
def State.configWritten (s : State) : State :=
  match s.tariffs.configWrite with
  | some _ => { s with tariffs := { s.tariffs with
      configSection := s.tariffs.configSection.write s.tariffs.config
      configWrite := none
      configBehind := false } }
  | none => s

/-- A configuration copy fails to verify: made again, or given up after three failures (R62). -/
def State.configWriteFailed (s : State) : State :=
  match s.tariffs.configWrite with
  | some n =>
    if n < 2 then { s with tariffs := { s.tariffs with configWrite := some (n + 1) } }
    else { s with tariffs := { s.tariffs with configWrite := none, configBehind := true } }
  | none => s

/-! ### READ_TARIFF -/

/-- A band in eleven bytes. -/
def Band.bytes (b : Band) : List Byte := be4 b.start ++ be2 b.step ++ be2 b.time ++ be2 b.amount ++ [b.mode.byte]

/-- The content of a tariff record (10_ports, Chain blocks). -/
def Tariff.bytes (id : Nat) (t : Tariff) : List Byte :=
  be1 id ++ [t.kind.byte, flagByte t.manual] ++ be4 t.flagFall ++ be2 t.d0 ++ be2 t.t0 ++ be1 t.s2 ++ be1 t.s3
    ++ be1 t.bands.length ++ t.bands.flatMap Band.bytes

/-- The content of a calendar entry. -/
def CalendarEntry.bytes (i : Nat) (e : CalendarEntry) : List Byte :=
  be1 i ++ [e.weekdays.setWidth 8] ++ be2 e.start ++ be1 e.tariff

/-- The content of an extras entry. -/
def ExtraEntry.bytes (id : Nat) (e : ExtraEntry) : List Byte :=
  be1 id ++ be4 e.amount ++ be1 e.maxCount ++ [flagByte e.afterStop]

/-- The configuration record, its fields in the order of R59. The pooling default is sent as SET_CONFIG's row of R185 has it, 0 off and 1
on (log entry 44, DEDUCED). -/
def ConfigRecord.bytes (c : ConfigRecord) : List Byte :=
  be2 c.k ++ be2 c.claimTimeout ++ be2 c.paymentTimeout ++ be4 c.ceiling ++ [flagByte c.pooling] ++ be2 c.lowWater
    ++ be1 c.depth ++ be1 c.nightLevel

/-- NONE 0, DONE 1, FAILED 2 (R71). -/
def ActivationOutcome.byte : ActivationOutcome → Byte
  | .noneYet => 0
  | .done => 1
  | .failed => 2

/-- The summary of a set (R71): which places are present, the activation, and whether the store section is behind. The places present are
masks of one, four and one bytes, the lowest bit the first place (log entry 35, DESIGN CHOICE). -/
def TariffStore.summary (x : TariffStore) (t : TariffSet) : List Byte :=
  be1 (bitsOf (t.tariffs.map Option.isSome)) ++ be4 (bitsOf (t.calendar.map Option.isSome)) ++ be1 (bitsOf (t.extras.map Option.isSome))
    ++ [flagByte x.activation.isSome, x.activationOutcome.byte, flagByte x.configBehind]

/-- The set a byte names: 0 ACTIVE, 1 STAGING. -/
def TariffStore.setOf (x : TariffStore) (b : Byte) : Option TariffSet :=
  if b = 0 then some x.active else if b = 1 then some x.staging else none

/-- An item of a set: its content, or why there is none (R71). A tariff record has no one length, so an empty tariff place is 14 zeros,
the content before the first band (log entry 34, DESIGN CHOICE). -/
def TariffStore.item (x : TariffStore) (t : TariffSet) (item place : Byte) : Except Code (List Byte) :=
  let n := place.toNat
  if item = 0 then (if placeId n then .ok (optItem 14 (Tariff.bytes n) (t.tariff n)) else .error .noSuch)
  else if item = 1 then (if n ≤ 31 then .ok (optItem 5 (CalendarEntry.bytes n) (t.entry n)) else .error .noSuch)
  else if item = 2 then (if placeId n then .ok (optItem 7 (ExtraEntry.bytes n) (t.extra n)) else .error .noSuch)
  else if item = 3 then .ok x.config.bytes
  else if item = 4 then .ok (x.summary t)
  else .error .range

/-- READ_TARIFF (R71): a set or item outside its encoding is RANGE (R185). -/
def readTariffOwner (set item place : Byte) : Owner := fun s =>
  match s.tariffs.setOf set with
  | none => (s, .refuse .range)
  | some t =>
    match s.tariffs.item t item place with
    | .ok bytes => done s bytes
    | .error code => (s, .refuse code)

/-! ### The clock -/

/-- SET 0, UNSET 1 (R187). -/
def ClockStatus.byte : ClockStatus → Byte
  | .set => 0
  | .unset => 1

/-- A reply of SET_CLOCK: every one carries the clock and its status as they stand (R187). -/
def clockReply (s : State) (c : Code) : State × Reply := (s, .of c (s.clock.bytes ++ [s.clockStatus.byte]))

/-- SET_CLOCK with a clock time (R187). -/
def setClockOwner (f : ClockFields) : Owner := fun s =>
  match firstRefusal [
      ((clockTimeOf f).valid, .range),
      (s.shift.state == .closed || (clockTimeOf f).near s.clock, .shiftState)] with
  | some c => clockReply s c
  | none => clockReply { s with clock := clockTimeOf f, clockStatus := .set } .ok

/-- SET_CLOCK with an empty payload reads the clock (R187). -/
def setClockReadOwner : Owner := fun s => clockReply s .ok

/-! ### The commands -/

/-- LOAD (R63 to R66). -/
def execLoad (p : PortId) (tag : Byte) (pl : List Byte) (s : State) : Host.Outcome State Fault Refusal :=
  requestBlock p .load tag pl (loadOwner pl) s

/-- COMPARE (R66, R67). -/
def execCompare (p : PortId) (tag : Byte) (pl : List Byte) (s : State) : Host.Outcome State Fault Refusal :=
  requestBlock p .compare tag pl (compareOwner pl) s

/-- ACTIVATE (R68). -/
def execActivate (p : PortId) (tag : Byte) (s : State) : Host.Outcome State Fault Refusal :=
  request p .activate tag activateOwner s

/-- READ_TARIFF (R71). -/
def execReadTariff (p : PortId) (tag set item place : Byte) (s : State) : Host.Outcome State Fault Refusal :=
  request p .readTariff tag (readTariffOwner set item place) s

/-- SET_CONFIG (R60): the seal line is sampled as the request arrives. -/
def execSetConfig (p : PortId) (tag : Byte) (x : SealedFields) (s : State) : Host.Outcome State Fault Refusal :=
  .next (unlessFrozen (fun s =>
    admitRequest p Kind.setConfig.byte tag (Kind.setConfig.offered p) (setConfigOwner x.fields) (s.sampleSeal x.sealed)) s)

/-- SET_CLOCK with a clock time (R187). -/
def execSetClock (p : PortId) (tag : Byte) (f : ClockFields) (s : State) : Host.Outcome State Fault Refusal :=
  request p .setClock tag (setClockOwner f) s

/-- SET_CLOCK with an empty payload (R187). -/
def execSetClockRead (p : PortId) (tag : Byte) (s : State) : Host.Outcome State Fault Refusal :=
  request p .setClock tag setClockReadOwner s

/-- CONFIG_WRITE_COMPLETE (R62). -/
def execConfigWriteComplete (s : State) : Host.Outcome State Fault Refusal := .next (whenRunning State.configWritten s)

/-- CONFIG_WRITE_FAIL (R62). -/
def execConfigWriteFail (s : State) : Host.Outcome State Fault Refusal := .next (whenRunning State.configWriteFailed s)

/-- ACTIVATION_DONE (R69). -/
def execActivationDone (s : State) : Host.Outcome State Fault Refusal := .next (whenRunning State.activationDone s)

/-- ACTIVATION_FAILED (R69). -/
def execActivationFailed (s : State) : Host.Outcome State Fault Refusal := .next (whenRunning State.activationFailed s)

/-- RTC_SECOND (R187): the clock runs on its own oscillator, so it is taken whatever the supply does (R190). -/
def execRtcSecond (s : State) : Host.Outcome State Fault Refusal := .next s.secondOn

end Sys2Proof.Machine
end

