-- ==== Sys2Proof/Machine/Ticks.lean ====
section
/-! DEFINITION. The 100 Hz tick and the fare tick (R186), and the events of the table that fall inside a tick (log entry 4). -/

namespace Sys2Proof.Machine

/-- The time base count after a tick (R186). -/
def State.nextCount (s : State) : Nat := (s.timeBase + 1) % Config.timeBaseModulus

/-- The next tick is a fare tick (R186). -/
def State.fareNext (s : State) : Bool := s.nextCount % 10 == 0

/-- Booking deadlines checked for every slot (R8). -/
def State.expireBookings (s : State) : State := ((s.expireBooking .a).expireBooking .b).expireBooking .c

/-- Payment entries and claims expired for every slot, A before B before C (R78, R85, R120). -/
def State.expireSettlements (s : State) : State := ((s.expireSlot .a).expireSlot .b).expireSlot .c

/-- The work of the Fare Engine, the Hire Controller and the Settlement Unit on a fare tick (R186), and the filing it may begin. -/
def State.fareWork (s : State) : State := (s.fareTickHires.expireBookings.expireSettlements).fileOn

/-- A tick (R186), its work in the order of log entry 9: the lines are read as they stand at the tick. -/
def State.tick (l : Lines) (s : State) : State :=
  let s1 := { s with pins := l, timeBase := s.nextCount }
  let s2 := ((s1.signTick s.fareNext).intercomTick).alarmTick
  let s3 := if s.fareNext then s2.fareWork else s2
  s3.partClearOn

/-- A tick in which the named event falls; one in which it does not is no such event (log entry 4). -/
def tickWith (falls : State → Bool) (l : Lines) (s : State) : State := if falls s then whenRunning (State.tick l) s else s

/-- The flash phase runs out at the next tick (R139). -/
def State.phaseEnds (s : State) : Bool :=
  match s.sign.flash with
  | some f => f.ends
  | none => false

/-- The step of the sign test runs out at the next tick (R143). -/
def State.testStepEnds (s : State) : Bool :=
  match s.sign.test with
  | some t => t.ends
  | none => false

/-- The entry expires at the next tick (R85). -/
def State.paymentFalls (s : State) (sl : SlotId) (entry : Nat) : Bool :=
  s.fareNext && (s.hire sl).stage == .stopped &&
    (match (s.hire sl).entry entry with
      | some e => e.dueAt s.nextCount
      | none => false)

/-! ### The commands -/

/-- TICK (R186). -/
def execTick (l : Lines) (s : State) : Host.Outcome State Fault Refusal := .next (whenRunning (State.tick l) s)

/-- FARE_TICK (R35, R186). -/
def execFareTick (l : Lines) (s : State) : Host.Outcome State Fault Refusal := .next (tickWith State.fareNext l s)

/-- AMBIENT_CHANGE (R136). -/
def execAmbientChange (l : Lines) (s : State) : Host.Outcome State Fault Refusal :=
  .next (tickWith (fun s => ambientTurns s.sign l.night) l s)

/-- FLASH_PHASE (R139). -/
def execFlashPhase (l : Lines) (s : State) : Host.Outcome State Fault Refusal := .next (tickWith State.phaseEnds l s)

/-- SIGN_TEST_STEP (R143). -/
def execSignTestStep (l : Lines) (s : State) : Host.Outcome State Fault Refusal := .next (tickWith State.testStepEnds l s)

/-- BOOKING_EXPIRED (R8). -/
def execBookingExpired (sl : SlotId) (l : Lines) (s : State) : Host.Outcome State Fault Refusal :=
  .next (tickWith (fun s => s.fareNext && s.bookingLapses sl) l s)

/-- PAYMENT_EXPIRED (R85). -/
def execPaymentExpired (sl : SlotId) (entry : Nat) (l : Lines) (s : State) : Host.Outcome State Fault Refusal :=
  .next (tickWith (fun s => s.paymentFalls sl entry) l s)

/-- CLAIM_EXPIRED (R78). -/
def execClaimExpired (sl : SlotId) (l : Lines) (s : State) : Host.Outcome State Fault Refusal :=
  .next (tickWith (fun s => s.fareNext && (s.hire sl).claimLapses s.nextCount) l s)

/-- PART_CLEAR_COMPLETE (R192, R193). -/
def execPartClearComplete (l : Lines) (s : State) : Host.Outcome State Fault Refusal := .next (tickWith State.clearCompletes l s)

/-- ALARM_PRESS (R166). -/
def execAlarmPress (l : Lines) (s : State) : Host.Outcome State Fault Refusal :=
  .next (tickWith (fun s => s.alarm.pressTaken l.alarm) l s)

end Sys2Proof.Machine
end

