-- ==== Sys2Proof/Machine/Transfers.lean ====
section
/-! DEFINITION. Transfers on a port: taking the bytes of a frame, handing a request frame to its owner, and shifting reply frames
out (R174 to R177). -/

namespace Sys2Proof.Machine

/-! ### From a request frame to its owner -/

/-- The length a payload of a kind has (R185); none for LOAD and COMPARE, whose blocks are handed on whatever their length. -/
def Kind.payloadLengths : Kind → Option (List Nat)
  | .openShift => some [2]
  | .setPooling => some [1]
  | .readCounter => some [1]
  | .book => some [11]
  | .cancelBooking => some [1]
  | .startHire => some [2]
  | .suspend => some [1]
  | .resume => some [1]
  | .stopHire => some [1]
  | .addExtra => some [2]
  | .removeExtra => some [2]
  | .closeUnpaid => some [1]
  | .readHire => some [1]
  | .claim => some [1]
  | .release => some [1]
  | .beginPayment => some [10]
  | .paymentResult => some [27]
  | .reverse => some [2]
  | .postCash => some [9]
  | .load => none
  | .compare => none
  | .readTariff => some [3]
  | .setConfig => some [16]
  | .setClock => some [0, 8]
  | .readJournal => some [1]
  | .ackJournal => some [4]
  | .ackUnfiled => some [1]
  | .signOverride => some [1]
  | .signTest => some [1]
  | .setTalkMode => some [1]
  | .setVolume => some [2]
  | .postPrompt => some [1]
  | .setMonitor => some [1]
  | .setIndicators => some [2]
  | .ackNotices => some [4]
  | .setNoticeMask => some [4]
  | .setStageMask => some [1]
  | .closeShift => some [0]
  | .readShift => some [0]
  | .latchCounters => some [0]
  | .activate => some [0]
  | .readUnfiled => some [0]
  | .signClear => some [0]
  | .readIntercom => some [0]
  | .intercomClear => some [0]
  | .alarmStandDown => some [0]
  | .readAlarmLog => some [0]
  | .clearPart => some [0]
  | .readIndicators => some [0]
  | .null => some [0]

/-- The length of a payload agrees with the form of its kind (R175). -/
def Kind.lengthFits (k : Kind) (pl : List Byte) : Bool :=
  match k.payloadLengths with
  | some ns => ns.contains pl.length
  | none => true

/-- SIGN_TEST by its value: 0 RUN, 1 REPORT, any other RANGE with the status (R142). -/
def signTestOwner (value : Byte) : Owner :=
  if value = 0 then signTestRunOwner else if value = 1 then signTestReportOwner else fun s => testReply s .range

/-- SET_CLOCK by its payload: empty, or a clock time (R187). -/
def setClockPayload (pl : List Byte) : Owner := if pl.isEmpty then setClockReadOwner else setClockOwner (clockFieldsAt pl)

/-- The owner's work on a request of a kind, its payload of a length that fits. NULL is taken before this (R175). -/
def ownerOf (p : PortId) (pl : List Byte) : Kind → Owner
  | .openShift => openShiftOwner (halfAt pl 0)
  | .closeShift => closeShiftOwner
  | .setPooling => setPoolingOwner (byteAt pl 0)
  | .readShift => readShiftOwner
  | .latchCounters => latchCountersOwner p
  | .readCounter => readCounterOwner p (byteAt pl 0)
  | .book => bookOwner (byteAt pl 0) (BitVec.ofNat 64 (numAt pl 1 8)) (halfAt pl 9)
  | .cancelBooking => cancelBookingOwner (byteAt pl 0)
  | .startHire => startHireOwner (byteAt pl 0) (byteAt pl 1)
  | .suspend => suspendOwner (byteAt pl 0)
  | .resume => resumeOwner (byteAt pl 0)
  | .stopHire => stopHireOwner (byteAt pl 0)
  | .addExtra => addExtraOwner (byteAt pl 0) (byteAt pl 1)
  | .removeExtra => removeExtraOwner (byteAt pl 0) (byteAt pl 1)
  | .closeUnpaid => closeUnpaidOwner (byteAt pl 0)
  | .readHire => readHireOwner p (byteAt pl 0)
  | .claim => claimOwner p (byteAt pl 0)
  | .release => releaseOwner p (byteAt pl 0)
  | .beginPayment => beginPaymentOwner p (byteAt pl 0) (byteAt pl 1) (wordAt pl 2) (wordAt pl 6)
  | .paymentResult => paymentResultOwner p (resultFieldsAt pl)
  | .reverse => reverseOwner p (byteAt pl 0) (byteAt pl 1)
  | .postCash => postCashOwner (byteAt pl 0) (wordAt pl 1) (wordAt pl 5)
  | .load => loadOwner pl
  | .compare => compareOwner pl
  | .activate => activateOwner
  | .readTariff => readTariffOwner (byteAt pl 0) (byteAt pl 1) (byteAt pl 2)
  | .setConfig => setConfigOwner (configFieldsAt pl)
  | .setClock => setClockPayload pl
  | .readJournal => readJournalOwner (byteAt pl 0)
  | .ackJournal => ackJournalOwner (wordAt pl 0)
  | .readUnfiled => readUnfiledOwner
  | .ackUnfiled => ackUnfiledOwner (byteAt pl 0)
  | .signOverride => signOverrideOwner (byteAt pl 0)
  | .signTest => signTestOwner (byteAt pl 0)
  | .signClear => signClearOwner
  | .setTalkMode => setTalkModeOwner (byteAt pl 0)
  | .setVolume => setVolumeOwner (byteAt pl 0) (byteAt pl 1)
  | .readIntercom => readIntercomOwner
  | .intercomClear => intercomClearOwner
  | .postPrompt => postPromptOwner (byteAt pl 0)
  | .setMonitor => setMonitorOwner (byteAt pl 0)
  | .alarmStandDown => alarmStandDownOwner
  | .readAlarmLog => readAlarmLogOwner
  | .clearPart => clearPartOwner
  | .setIndicators => setIndicatorsOwner (byteAt pl 0) (byteAt pl 1)
  | .readIndicators => readIndicatorsOwner
  | .ackNotices => ackNoticesOwner p (wordAt pl 0)
  | .setNoticeMask => setNoticeMaskOwner p (wordAt pl 0)
  | .setStageMask => setStageMaskOwner p (byteAt pl 0)
  | .null => fun s => (s, .refuse .ok)

/-- The owner's work after step 5 of R175: a payload of a length that does not fit is RANGE. -/
def checkedOwner (p : PortId) (pl : List Byte) (k : Kind) : Owner :=
  if k.lengthFits pl then ownerOf p pl k else refusedBy .range

/-- A request frame of sound check word, taken by R175: NULL first, then the steps of `admitRequest`. A kind value outside the catalogue is
offered on no port. -/
def takeRequest (p : PortId) (kind tag : Byte) (pl : List Byte) (s : State) : State :=
  match kindOf kind with
  | some .null => admitNull p tag s
  | some k => admitRequest p kind tag (k.offered p) (checkedOwner p pl k) s
  | none => admitRequest p kind tag false (refusedBy .notPermitted) s

/-- A complete frame: one whose check word fails is answered FRAME_CHECK (R175). -/
def takeFrame (p : PortId) (bs : List Byte) (s : State) : State :=
  let n := bs.length - 2
  if (crc16 (bs.take n)).toNat = beNat (bs.drop n) then takeRequest p (byteAt bs 0) (byteAt bs 1) ((bs.take n).drop 4) s
  else s.refuse p (byteAt bs 1) .frameCheck

/-! ### Bytes -/

/-- The receive state of a port replaced. -/
def State.setReceive (s : State) (p : PortId) (r : Option (List Byte)) : State := s.putPort p { s.port p with receive := r }

/-- What the bytes taken so far amount to (R175). -/
inductive Progress where
  /-- the frame goes on -/
  | more
  /-- the payload length is above 240 -/
  | malformed
  /-- the check bytes have arrived -/
  | complete
  deriving DecidableEq, Repr

/-- The progress of a frame: its fourth byte gives the payload length (R175). -/
def progress (bs : List Byte) : Progress :=
  if bs.length < 4 then .more
  else if maxPayload < (byteAt bs 3).toNat then .malformed
  else if bs.length < 6 + (byteAt bs 3).toNat then .more
  else .complete

/-- One byte clocked in on a port: ignored while IDLE (R174, R175). -/
def receiveByte (p : PortId) (s : State) (b : Byte) : State :=
  match (s.port p).receive with
  | none => s
  | some bs =>
    match progress (bs ++ [b]) with
    | .more => s.setReceive p (some (bs ++ [b]))
    | .malformed => (s.setReceive p none).refuse p (byteAt bs 1) .frameCheck
    | .complete => takeFrame p (bs ++ [b]) (s.setReceive p none)

/-- Bytes clocked in, one after another. -/
def receiveBytes (p : PortId) (bs : List Byte) (s : State) : State := bs.foldl (receiveByte p) s

/-! ### READ and REPEAT -/

/-- The bytes with meaning that a transfer shifted out (R174). -/
def State.shiftOut (s : State) (p : PortId) (bs : List Byte) : State := s.putPort p { s.port p with wire := bs }

/-- The frame wholly shifted out: the refusal frame is gone, or one more reply frame is read; it is the last frame read (R174,
R177). -/
def Port.markRead (x : Port) (f : Frame) : Port :=
  match x.refusal with
  | some _ => { x with refusal := none, lastRead := some f }
  | none => { x with readCount := x.readCount + 1, lastRead := some f }

/-- The next frame to be read, none when a READ shifts out the empty frame (R177). -/
def Port.nextFrame (x : Port) : Option Frame :=
  match x.refusal with
  | some f => some f
  | none => x.reply[x.readCount]?

/-- A READ that clocks out n bytes (R174, R177). -/
def State.readTransfer (s : State) (p : PortId) (n : Nat) : State :=
  match (s.port p).nextFrame with
  | none => s.shiftOut p (emptyFrame.bytes.take n)
  | some f =>
    let s1 := s.shiftOut p (f.bytes.take n)
    if f.bytes.length ≤ n then s1.putPort p ((s1.port p).markRead f) else s1

/-- A REPEAT that clocks out n bytes (R174). -/
def State.repeatTransfer (s : State) (p : PortId) (n : Nat) : State :=
  s.shiftOut p ((((s.port p).lastRead.getD emptyFrame).bytes).take n)

/-! ### The commands -/

/-- WRITE-START (R174): a frame in progress is abandoned without reply. -/
def execWriteStart (p : PortId) (x : SealedBytes) (s : State) : Host.Outcome State Fault Refusal :=
  .next (unlessFrozen (fun s => receiveBytes p x.bytes ((s.sampleSeal x.sealed).setReceive p (some []))) s)

/-- WRITE-CONTINUE (R174). -/
def execWriteContinue (p : PortId) (x : SealedBytes) (s : State) : Host.Outcome State Fault Refusal :=
  .next (unlessFrozen (fun s => receiveBytes p x.bytes (s.sampleSeal x.sealed)) s)

/-- READ (R174, R177). -/
def execReadFrame (p : PortId) (n : Nat) (s : State) : Host.Outcome State Fault Refusal :=
  .next (unlessFrozen (fun s => s.readTransfer p n) s)

/-- REPEAT (R174). -/
def execRepeatFrame (p : PortId) (n : Nat) (s : State) : Host.Outcome State Fault Refusal :=
  .next (unlessFrozen (fun s => s.repeatTransfer p n) s)

end Sys2Proof.Machine
end

