-- ==== Sys2Proof/Machine/Dispatch.lean ====
section
/-! DEFINITION. One arm for each command: a direct call of its meaning. -/

namespace Sys2Proof.Machine

/-- What a command does to everything but the queue. -/
def exec (i : Instr) (s : State) : Host.Outcome State Fault Refusal :=
  match i with
  | .openShift p tag driver => Sys2Proof.Machine.execOpenShift p tag driver s
  | .closeShift p tag => Sys2Proof.Machine.execCloseShift p tag s
  | .setPooling p tag pooling => Sys2Proof.Machine.execSetPooling p tag pooling s
  | .readShift p tag => Sys2Proof.Machine.execReadShift p tag s
  | .latchCounters p tag => Sys2Proof.Machine.execLatchCounters p tag s
  | .readCounter p tag index => Sys2Proof.Machine.execReadCounter p tag index s
  | .book p tag slot reference deadline => Sys2Proof.Machine.execBook p tag slot reference deadline s
  | .cancelBooking p tag slot => Sys2Proof.Machine.execCancelBooking p tag slot s
  | .startHire p tag slot choice => Sys2Proof.Machine.execStartHire p tag slot choice s
  | .suspend p tag slot => Sys2Proof.Machine.execSuspend p tag slot s
  | .resume p tag slot => Sys2Proof.Machine.execResume p tag slot s
  | .stopHire p tag slot => Sys2Proof.Machine.execStopHire p tag slot s
  | .addExtra p tag slot extra => Sys2Proof.Machine.execAddExtra p tag slot extra s
  | .removeExtra p tag slot extra => Sys2Proof.Machine.execRemoveExtra p tag slot extra s
  | .closeUnpaid p tag slot => Sys2Proof.Machine.execCloseUnpaid p tag slot s
  | .readHire p tag slot => Sys2Proof.Machine.execReadHire p tag slot s
  | .claim p tag slot => Sys2Proof.Machine.execClaim p tag slot s
  | .release p tag slot => Sys2Proof.Machine.execRelease p tag slot s
  | .beginPayment p tag slot method amount tip => Sys2Proof.Machine.execBeginPayment p tag slot method amount tip s
  | .paymentResult p tag fields => Sys2Proof.Machine.execPaymentResult p tag fields s
  | .reverse p tag slot entry => Sys2Proof.Machine.execReverse p tag slot entry s
  | .postCash p tag slot amount tip => Sys2Proof.Machine.execPostCash p tag slot amount tip s
  | .load p tag payload => Sys2Proof.Machine.execLoad p tag payload s
  | .compare p tag payload => Sys2Proof.Machine.execCompare p tag payload s
  | .activate p tag => Sys2Proof.Machine.execActivate p tag s
  | .readTariff p tag set item place => Sys2Proof.Machine.execReadTariff p tag set item place s
  | .setConfig p tag fields => Sys2Proof.Machine.execSetConfig p tag fields s
  | .setClock p tag time => Sys2Proof.Machine.execSetClock p tag time s
  | .setClockRead p tag => Sys2Proof.Machine.execSetClockRead p tag s
  | .readJournal p tag count => Sys2Proof.Machine.execReadJournal p tag count s
  | .ackJournal p tag seq => Sys2Proof.Machine.execAckJournal p tag seq s
  | .readUnfiled p tag => Sys2Proof.Machine.execReadUnfiled p tag s
  | .ackUnfiled p tag count => Sys2Proof.Machine.execAckUnfiled p tag count s
  | .signOverride p tag value => Sys2Proof.Machine.execSignOverride p tag value s
  | .signOverrideReport p tag => Sys2Proof.Machine.execSignOverrideReport p tag s
  | .signTestRun p tag => Sys2Proof.Machine.execSignTestRun p tag s
  | .signTestReport p tag => Sys2Proof.Machine.execSignTestReport p tag s
  | .signClear p tag => Sys2Proof.Machine.execSignClear p tag s
  | .setTalkMode p tag mode => Sys2Proof.Machine.execSetTalkMode p tag mode s
  | .setVolume p tag path volume => Sys2Proof.Machine.execSetVolume p tag path volume s
  | .readIntercom p tag => Sys2Proof.Machine.execReadIntercom p tag s
  | .intercomClear p tag => Sys2Proof.Machine.execIntercomClear p tag s
  | .postPrompt p tag tone => Sys2Proof.Machine.execPostPrompt p tag tone s
  | .setMonitor p tag select => Sys2Proof.Machine.execSetMonitor p tag select s
  | .alarmStandDown p tag => Sys2Proof.Machine.execAlarmStandDown p tag s
  | .readAlarmLog p tag => Sys2Proof.Machine.execReadAlarmLog p tag s
  | .clearPart p tag => Sys2Proof.Machine.execClearPart p tag s
  | .setIndicators p tag enable value => Sys2Proof.Machine.execSetIndicators p tag enable value s
  | .readIndicators p tag => Sys2Proof.Machine.execReadIndicators p tag s
  | .ackNotices p tag mask => Sys2Proof.Machine.execAckNotices p tag mask s
  | .setNoticeMask p tag mask => Sys2Proof.Machine.execSetNoticeMask p tag mask s
  | .setStageMask p tag mask => Sys2Proof.Machine.execSetStageMask p tag mask s
  | .null p tag => Sys2Proof.Machine.execNull p tag s
  | .writeStart p bytes => Sys2Proof.Machine.execWriteStart p bytes s
  | .writeContinue p bytes => Sys2Proof.Machine.execWriteContinue p bytes s
  | .readFrame p clocked => Sys2Proof.Machine.execReadFrame p clocked s
  | .repeatFrame p clocked => Sys2Proof.Machine.execRepeatFrame p clocked s
  | .wheelPulse => Sys2Proof.Machine.execWheelPulse s
  | .totalMetres100m => Sys2Proof.Machine.execTotalMetres100m s
  | .tick lines => Sys2Proof.Machine.execTick lines s
  | .fareTick lines => Sys2Proof.Machine.execFareTick lines s
  | .ambientChange lines => Sys2Proof.Machine.execAmbientChange lines s
  | .flashPhase lines => Sys2Proof.Machine.execFlashPhase lines s
  | .signTestStep lines => Sys2Proof.Machine.execSignTestStep lines s
  | .bookingExpired slot lines => Sys2Proof.Machine.execBookingExpired slot lines s
  | .paymentExpired slot entry lines => Sys2Proof.Machine.execPaymentExpired slot entry lines s
  | .claimExpired slot lines => Sys2Proof.Machine.execClaimExpired slot lines s
  | .configWriteComplete => Sys2Proof.Machine.execConfigWriteComplete s
  | .configWriteFail => Sys2Proof.Machine.execConfigWriteFail s
  | .activationDone => Sys2Proof.Machine.execActivationDone s
  | .activationFailed => Sys2Proof.Machine.execActivationFailed s
  | .totalizerWriteComplete => Sys2Proof.Machine.execTotalizerWriteComplete s
  | .totalizerWriteFail => Sys2Proof.Machine.execTotalizerWriteFail s
  | .journalVerifyPass => Sys2Proof.Machine.execJournalVerifyPass s
  | .journalVerifyFail => Sys2Proof.Machine.execJournalVerifyFail s
  | .journalRecoveryStart => Sys2Proof.Machine.execJournalRecoveryStart s
  | .journalRecoveryEnd failed => Sys2Proof.Machine.execJournalRecoveryEnd failed s
  | .partClearComplete lines => Sys2Proof.Machine.execPartClearComplete lines s
  | .alarmPress lines => Sys2Proof.Machine.execAlarmPress lines s
  | .frontCodecFrame microphone => Sys2Proof.Machine.execFrontCodecFrame microphone s
  | .rearCodecFrame microphone => Sys2Proof.Machine.execRearCodecFrame microphone s
  | .promptEnd microphone => Sys2Proof.Machine.execPromptEnd microphone s
  | .chimeEnd microphone => Sys2Proof.Machine.execChimeEnd microphone s
  | .rtcSecond => Sys2Proof.Machine.execRtcSecond s
  | .powerFailWarning => Sys2Proof.Machine.execPowerFailWarning s
  | .freeze => Sys2Proof.Machine.execFreeze s
  | .freezeExit u => Sys2Proof.Machine.execFreezeExit u s
  | .powerOn u => Sys2Proof.Machine.execPowerOn u s

end Sys2Proof.Machine
end

