-- ==== Sys2Proof/Machine/Selections.lean ====
section
/-! DEFINITION. One selection of a port, from the bytes the processor clocks in (R174). -/

namespace Sys2Proof.Machine

/-- A selection of a port: the transfer its first byte names, or, with another first byte or none, nothing (R174). -/
def selection (p : PortId) (sealed : Bool) (bytes : List Byte) (s : State) : Host.Outcome State Fault Refusal :=
  match transferOf p sealed bytes with
  | some i => exec i s
  | none => .next s

end Sys2Proof.Machine
end

