-- ==== Sys2Proof/Safety.lean ====
section
/-! DEFINITION. What counts as a safe run, in the terms the statements use: when a port may make a request, what a request is answered
with, and the laws the manual states over every run. -/

namespace Sys2Proof.Machine

/-! ### Requests -/

/-- The part runs and the port has no reply outstanding: its next request is handed to its owner (R175). -/
def Ready (s : State) (p : PortId) : Prop := s.power = .running ∧ (s.port p).outstanding = false

/-- The state with a one-frame reply to a request of a kind placed in a port's reply store (R177). -/
def State.replied (s : State) (p : PortId) (k : Kind) (tag : Byte) (c : Code) (items : List Byte) : State :=
  s.answer p k.byte tag (.of c items)

/-- The state after a request that changes only the port it arrived on. -/
def OnlyPort (s t : State) (p : PortId) : Prop := t = { s with ports := s.ports.put p (t.port p) }

/-- Two states alike but for what the covert alarm moves: the alarm, the ALARM lamp, the flash, the monitor select and sample, and the
Fleet port (R172). -/
def AlarmApart (s u : State) : Prop :=
  u = { s with
    alarm := u.alarm
    sign := { s.sign with flash := u.sign.flash, lamps := { s.sign.lamps with alarm := u.sign.lamps.alarm } }
    intercom := { s.intercom with monitor := u.intercom.monitor, monitorOut := u.intercom.monitorOut }
    ports := { s.ports with fleet := u.ports.fleet } }

/-- The command is a CLEAR_PART of the Fleet port, by its row or by the bytes that complete or continue its frame: the one request whose
outcome R192 makes depend on the alarm. -/
def ClearsPart (s : State) : Instr → Prop
  | .clearPart p _ => p = .fleet
  | .writeStart p x => p = .fleet ∧ byteAt x.bytes 0 = Kind.clearPart.byte
  | .writeContinue p x => p = .fleet ∧ byteAt ((s.port p).receive.getD [] ++ x.bytes) 0 = Kind.clearPart.byte
  | _ => False

/-- The slots other than `sl` are FREE. -/
def AloneIn (s : State) (sl : SlotId) : Prop := ∀ other, other ≠ sl → (s.hire other).stage = .free

/-- The record at the head of the filing queue is being filed, or would find a slot (R121): no filing ends for want of one (R124). -/
def Journal.steady (j : Journal) : Prop := j.inFlight.isSome = true ∨ (j.writingOpen = true ∧ j.slotFree j.writer = true)

/-- A PAYMENT_RESULT speaks of an entry of the hire in a slot: it names the hire by its number and the entry by its index, and repeats the
entry's method, amount and tip (R82). -/
def SpeaksOf (s : State) (sl : SlotId) (f : ResultFields) (e : Payment) : Prop :=
  slotOf f.slot = some sl ∧ (s.hire sl).number = some f.hire.toNat ∧ 1 ≤ f.entry.toNat
    ∧ (s.hire sl).payments[f.entry.toNat - 1]? = some e ∧ methodOf f.method = some e.method ∧ f.amount.toNat = e.amount
    ∧ f.tip.toNat = e.tip

/-- The metres drawn and the remainder left after a number of pulses counted from a remainder of 0 (R29). -/
def metreRun (k : Nat) : Nat → Nat × Nat
  | 0 => (0, 0)
  | p + 1 => ((metreRun k p).1 + metresDrawn k (metreRun k p).2, metreRemainder k (metreRun k p).2)

/-- Steps charged one after another, each a step amount at a share percent (R42). -/
def chargeAll (h : Hire) (steps : List (Nat × Nat)) : Hire := steps.foldl (fun x a => x.charge a.1 a.2) h

/-! ### Laws -/

/-- At most one of three numbers is above zero. -/
def AtMostOne (a b c : Nat) : Prop := (a = 0 ∧ b = 0) ∨ (a = 0 ∧ c = 0) ∨ (b = 0 ∧ c = 0)

/-- The front lamps of the exclusive group other than the one under test are dark (R143). -/
def GroupDarkBut (l : Lamps) (i : LampId) : Prop :=
  (i ≠ .vacant → l.vacant.level = 0) ∧ (i ≠ .hired → l.hired.level = 0) ∧ (i ≠ .offDuty → l.offDuty.level = 0)

/-- The law of the roof sign: at most one of VACANT, HIRED and OFF_DUTY has a level above zero (R137), with what keeps it: at most one
has a goal above zero, and in a test the group is dark but for the lamp under test. -/
def LampLaw (x : Sign) : Prop :=
  AtMostOne x.lamps.vacant.level x.lamps.hired.level x.lamps.offDuty.level
    ∧ AtMostOne x.lamps.vacant.goal x.lamps.hired.goal x.lamps.offDuty.goal
    ∧ ∀ t, x.test = some t → GroupDarkBut x.lamps t.lamp

/-- The half-duplex law: in PTT and PRIVATE, with no prompt playing, at most one path has a gain above zero (R155), with what keeps
it: at most one path is not CLOSED, an OPEN FR finds the RF gain at 0, and, with no prompt playing, an OPEN RF finds the FR gain at 0. -/
def TalkLaw (x : Intercom) : Prop :=
  x.mode.halfDuplex = true →
    (x.fr.state = .closed ∨ x.rf.state = .closed)
      ∧ (x.fr.state = .opened → x.rf.gain = 0)
      ∧ (x.playing = none → (x.rf.state = .opened → x.fr.gain = 0) ∧ (x.fr.gain = 0 ∨ x.rf.gain = 0))

/-- The law of the offline ceiling (R84). -/
def CeilingLaw (x : ShiftAccounting) : Prop := x.offlineTotal ≤ x.ceiling

/-- A claimed hire is STOPPED (R72). -/
def Hire.claimLaw (h : Hire) : Prop := h.claim.isSome → h.stage = .stopped

/-- The law of claims: every claimed hire is STOPPED, and no port holds claims on two hires (R74). -/
def ClaimLaw (t : HireTable) : Prop :=
  t.a.claimLaw ∧ t.b.claimLaw ∧ t.c.claimLaw
    ∧ ∀ p, ¬(t.a.claimedBy p ∧ t.b.claimedBy p) ∧ ¬(t.a.claimedBy p ∧ t.c.claimedBy p) ∧ ¬(t.b.claimedBy p ∧ t.c.claimedBy p)

/-- The law of the balance: no hire's approved and pending amounts exceed its total due (R81). -/
def BalanceLaw (t : HireTable) : Prop := ∀ sl, (t.get sl).approvedSum + (t.get sl).pendingSum ≤ (t.get sl).totalDue

/-- A tariff set has eight tariff, thirty-two calendar and eight extras places (R51). -/
def TariffSet.shaped (t : TariffSet) : Prop := t.tariffs.length = 8 ∧ t.calendar.length = 32 ∧ t.extras.length = 8

/-- Every set the Tariff Store holds has its places (R51). -/
def PlacesLaw (x : TariffStore) : Prop :=
  x.active.shaped ∧ x.staging.shaped ∧ (∀ t, x.activation = some t → t.shaped)
    ∧ (∀ t, x.tariffSection.copyA = some t → t.shaped) ∧ (∀ t, x.tariffSection.copyB = some t → t.shaped)

/-- The journal's slots are listed in one canonical order, so that equal stores are equal data. -/
def StoreLaw (j : Journal) : Prop := storeCanonical j.store

/-- No enable mask holds a kind that its port is not told of (R182). -/
def MaskLaw (q : Ports) : Prop := ∀ p, (q.get p).enable &&& ~~~(deliveredMask p) = 0

/-- Shift Accounting keeps fifteen counters (R105). -/
def CountersLaw (x : ShiftAccounting) : Prop := x.counters.length = 15

/-- The alarm log holds at most eight entries (R165), and an ACTIVE alarm has its entry there (R167). -/
def AlarmLaw (x : Alarm) : Prop := x.log.length ≤ 8 ∧ (x.state = .active → x.log ≠ [])

end Sys2Proof.Machine
end

