-- ==== Sys2Proof/Certificates/Slice0/Obligations.lean ====
section
/-! DEFINITION. The statements for the provers: each says in its name and docstring what it states and which rule it follows. -/

open Sys2Proof Sys2Proof.Machine

/-! ### The machine -/

/-- A step takes the command at the front of the queue and runs it on the state with the queue's rest; on an empty queue the part idles
(the model's choice, log entry 3). -/
def Obligations.StepRunsTheFrontCommand : Prop :=
  (∀ (c : Instr) (rest : List Instr) (s : State), step { s with pending := c :: rest } = exec c { s with pending := rest })
    ∧ ∀ s : State, s.pending = [] → step s = .next s

/-- Every command, in every state, is answered by a next state that keeps the queue: no command stops the part. -/
def Obligations.EveryCommandEndsInANextState : Prop :=
  ∀ (c : Instr) (s : State), ∃ t, exec c s = .next t ∧ t.pending = s.pending

/-- The values the manual gives for a start with no retention memory and a store never written: R1, R4, R28, R51, R59, R96, R111, R119,
R132, R145, R165, R173, R186, R187. That reset is such a start is the model's reading (log entry 2). The machine after reset satisfies
every law of the statements above. -/
def Obligations.ResetHoldsTheValuesOfANewPart : Prop :=
  ((∀ sl, State.reset.hire sl = Hire.cleared) ∧ State.reset.nextHire = 1 ∧ State.reset.vacantRem = 0 ∧ State.reset.odoRem = 0
      ∧ State.reset.timeBase = 0 ∧ State.reset.clock = ⟨2000, 1, 1, 6, 0, 0, 0⟩ ∧ State.reset.clockStatus = .unset
      ∧ State.reset.tariffs.active = TariffSet.blank ∧ State.reset.tariffs.staging = TariffSet.blank
      ∧ State.reset.tariffs.config = ⟨1000, 120, 90, 50000, false, 64, 64, 6⟩ ∧ State.reset.tariffs.activationOutcome = .noneYet
      ∧ State.reset.tariffs.configBehind = false ∧ State.reset.tariffs.chain.kind = none
      ∧ State.reset.shift.state = .closed ∧ State.reset.shift.number = 0 ∧ State.reset.shift.driver = none
      ∧ State.reset.shift.pooling = false ∧ State.reset.shift.ceiling = 0 ∧ State.reset.shift.offlineTotal = 0
      ∧ State.reset.shift.counters = List.replicate 15 ⟨0, false⟩ ∧ State.reset.shift.totals = ⟨0, 0, 0, 0, 0⟩
      ∧ State.reset.shift.totalsStatus = .lost ∧ State.reset.shift.openTime = none ∧ State.reset.shift.closeTime = none
      ∧ State.reset.journal.store = [] ∧ State.reset.journal.nextSeq = 1 ∧ State.reset.journal.acked = 0
      ∧ State.reset.journal.state = .normal ∧ State.reset.journal.retired = [] ∧ State.reset.journal.unfiled = []
      ∧ State.reset.journal.queue.map JournalRecord.body = [.retentionLost]
      ∧ State.reset.sign.override = .auto ∧ (∀ i, (State.reset.sign.lamps.get i).level = 0 ∧ (State.reset.sign.lamps.get i).fault = false)
      ∧ State.reset.sign.test = none ∧ State.reset.intercom.mode = .off ∧ State.reset.intercom.fr = Path.reset
      ∧ State.reset.intercom.rf = Path.reset ∧ State.reset.intercom.monitor = .off
      ∧ State.reset.alarm = ⟨.quiet, [], true, 0, 0⟩ ∧ State.reset.indicators = 0
      ∧ (∀ p, (State.reset.port p).receive = none ∧ (State.reset.port p).outstanding = false ∧ (State.reset.port p).refusal = none
          ∧ (State.reset.port p).notices = NoticeKind.powerRestored.mask ∧ (State.reset.port p).enable = deliveredMask p
          ∧ (State.reset.port p).stageMask = defaultStageMask p ∧ (State.reset.port p).snapshot = none)
      ∧ State.reset.power = .running ∧ State.reset.closedMark = false)
  ∧
  (LampLaw State.reset.sign ∧ TalkLaw State.reset.intercom ∧ CeilingLaw State.reset.shift ∧ ClaimLaw State.reset.hires
      ∧ BalanceLaw State.reset.hires ∧ PlacesLaw State.reset.tariffs ∧ StoreLaw State.reset.journal ∧ MaskLaw State.reset.ports
      ∧ CountersLaw State.reset.shift ∧ State.reset.clock.valid = true ∧ AlarmLaw State.reset.alarm)

/-! ### Ports, frames and notices -/

/-- The steps of R175 on a request frame of sound check word: BUSY while the power fails (NULL included), BUSY while a reply is
outstanding, NOT_PERMITTED for a kind the port is not offered, RANGE for a payload of the wrong length. Whatever the outcome, the frame is
complete and the receive state returns to IDLE (R174). That the answers of the last two steps carry the code alone (log entry 15) and, as
replies, forget the last frame read, which BUSY keeps (log entry 24), is the model's reading. -/
def Obligations.PortRefusesInTheOrderOfTheSteps : Prop :=
  ∀ (p : PortId) (kind tag : Byte) (pl : List Byte) (s : State),
    (s.power = .failing → takeRequest p kind tag pl s = s.refuse p tag .busy)
    ∧ (s.power = .running → (s.port p).outstanding = true → kindOf kind ≠ some .null →
        takeRequest p kind tag pl s = s.refuse p tag .busy)
    ∧ (Ready s p → (∀ k, kindOf kind = some k → k.offered p = false) →
        takeRequest p kind tag pl s = s.answer p kind tag (.refuse .notPermitted))
    ∧ (∀ k, Ready s p → kindOf kind = some k → k ≠ .null → k.offered p = true → k.lengthFits pl = false →
        takeRequest p kind tag pl s = s.answer p kind tag (.refuse .range))
    ∧ (∀ k, Ready s p → kindOf kind = some k → k ≠ .null → k.offered p = true → k.lengthFits pl = true →
        takeRequest p kind tag pl s = ((ownerOf p pl k s).1).answer p kind tag (ownerOf p pl k s).2)
    ∧ (s.power ≠ .frozen → ((takeRequest p kind tag pl s).port p).receive = none)

/-- A frame sent in one WRITE-START, or carried to its end by a WRITE-CONTINUE, is taken as a request at the byte that completes it when
its check word is sound, and answered FRAME_CHECK when it is not or, at the fourth byte, when its length is above 240; what follows the
frame in the transfer is ignored (R174, R175, R176). The seal line is held as it reads during the transfer (the model's choice, log entry
5). WRITE-CONTINUE carries a frame on while it is not complete, and is ignored while IDLE; WRITE-START abandons a frame in progress
without reply (R174). The first byte of a selection names its transfer, 1 to 4; a selection with any other first byte, or with none,
changes nothing (R174). -/
def Obligations.FramesAreBuiltAndTaken : Prop :=
  (∀ (p : PortId) (kind tag flags : Byte) (sealed : Bool) (xs ys more : List Byte) (i : Instr) (s u : State), s.power ≠ .frozen →
      (i = .writeStart p ⟨ys, sealed⟩ ∧ xs = [] ∨ i = .writeContinue p ⟨ys, sealed⟩ ∧ (s.port p).receive = some xs) →
      u = { s with pins := { s.pins with sealed := sealed } } →
      (∀ pl : List Byte, pl.length ≤ 240 → xs.length < pl.length + 6 →
        xs ++ ys = (kind :: tag :: flags :: BitVec.ofNat 8 pl.length :: pl
          ++ be2 (crc16 (kind :: tag :: flags :: BitVec.ofNat 8 pl.length :: pl)).toNat) ++ more →
        exec i s = .next (takeRequest p kind tag pl (u.setReceive p none)))
      ∧ (∀ (pl : List Byte) (hi lo : Byte), pl.length ≤ 240 → xs.length < pl.length + 6 →
          [hi, lo] ≠ be2 (crc16 (kind :: tag :: flags :: BitVec.ofNat 8 pl.length :: pl)).toNat →
          xs ++ ys = (kind :: tag :: flags :: BitVec.ofNat 8 pl.length :: pl ++ [hi, lo]) ++ more →
          exec i s = .next ((u.setReceive p none).refuse p tag .frameCheck))
      ∧ (∀ n : Byte, 240 < n.toNat → xs.length < 4 → xs ++ ys = kind :: tag :: flags :: n :: more →
          exec i s = .next ((u.setReceive p none).refuse p tag .frameCheck)))
  ∧
  (∀ (p : PortId) (sealed : Bool) (s u : State), s.power ≠ .frozen → u = { s with pins := { s.pins with sealed := sealed } } →
      (∀ xs ys : List Byte, (s.port p).receive = some xs → (∀ k, progress (xs ++ ys.take (k + 1)) = .more) →
        exec (.writeContinue p ⟨ys, sealed⟩) s = .next (u.setReceive p (some (xs ++ ys))))
      ∧ (∀ ys : List Byte, (s.port p).receive = none → exec (.writeContinue p ⟨ys, sealed⟩) s = .next u)
      ∧ (∀ ys : List Byte, (∀ k, progress (ys.take (k + 1)) = .more) →
        exec (.writeStart p ⟨ys, sealed⟩) s = .next (u.setReceive p (some ys))))
  ∧
  (∀ (p : PortId) (sealed : Bool) (rest : List Byte) (s : State),
      selection p sealed (1 :: rest) s = exec (.writeStart p ⟨rest, sealed⟩) s
      ∧ selection p sealed (2 :: rest) s = exec (.writeContinue p ⟨rest, sealed⟩) s
      ∧ selection p sealed (3 :: rest) s = exec (.readFrame p rest.length) s
      ∧ selection p sealed (4 :: rest) s = exec (.repeatFrame p rest.length) s
      ∧ (∀ b : Byte, b = 0 ∨ 4 < b.toNat → selection p sealed (b :: rest) s = .next s)
      ∧ selection p sealed [] s = .next s)

/-- READ shifts out the refusal frame first, then the next unread frame, else the empty frame; a frame is read only when its last byte has
gone out; REPEAT shifts out the last frame read and changes nothing else (R174, R177). NULL discards the replies, the refusal frame and
the last frame read, and on the Fleet port closes an open chain; between the warning and the freeze it is answered BUSY (R175, R178). That
bytes past a frame's end are none (log entry 16, its choice), that a NULL answered BUSY keeps the last frame read (log entry 24) and that
the empty frame carries the tag 0 (log entry 49, its choice, since R174 gives that frame no tag) are the model's. -/
def Obligations.FramesAreReadRepeatedAndDiscarded : Prop :=
  (∀ (p : PortId) (n : Nat) (s : State), s.power ≠ .frozen →
      (∀ f, (s.port p).refusal = some f → f.bytes.length ≤ n →
        exec (.readFrame p n) s
          = .next (s.putPort p { s.port p with refusal := none, lastRead := some f, wire := f.bytes }))
      ∧ (∀ f, (s.port p).refusal = none → (s.port p).reply[(s.port p).readCount]? = some f → f.bytes.length ≤ n →
        exec (.readFrame p n) s
          = .next (s.putPort p { s.port p with readCount := (s.port p).readCount + 1, lastRead := some f, wire := f.bytes }))
      ∧ (∀ f, (s.port p).nextFrame = some f → n < f.bytes.length →
        exec (.readFrame p n) s = .next (s.putPort p { s.port p with wire := f.bytes.take n }))
      ∧ ((s.port p).nextFrame = none →
        exec (.readFrame p n) s = .next (s.putPort p { s.port p with wire := (emptyFrame.bytes).take n }))
      ∧ exec (.repeatFrame p n) s
          = .next (s.putPort p { s.port p with wire := (((s.port p).lastRead.getD emptyFrame).bytes).take n }))
  ∧
  (∀ (p : PortId) (tag : Byte) (s : State),
      (s.power = .running → ∃ t, exec (.null p tag) s = .next t
        ∧ t.port p = { s.port p with receive := none, reply := [], readCount := 0, refusal := none, lastRead := none }
        ∧ (t.port p).outstanding = false ∧ t.tariffs.chain = (if p = .fleet then Chain.cleared else s.tariffs.chain)
        ∧ t = { s with ports := s.ports.put p (t.port p), tariffs := { s.tariffs with chain := t.tariffs.chain } })
      ∧ (s.power = .failing → exec (.null p tag) s = .next (s.refuse p tag .busy)))

/-- ACK_NOTICES removes the kinds of its mask and no other, bits for kinds not pending being ignored; the attention line is then asserted
exactly while a kind that is left is enabled; its reply carries the set before and after; an empty mask leaves the set as it was (R183).
-/
def Obligations.AckNoticesRemovesTheKindsOfItsMask : Prop :=
  ∀ (p : PortId) (tag : Byte) (mask : Word) (s : State), Ready s p →
    ∃ t u : State, exec (.ackNotices p tag mask) s = .next u
      ∧ t = s.putPort p { s.port p with notices := (s.port p).notices &&& ~~~mask }
      ∧ u = t.replied p .ackNotices tag .ok (be4 (s.port p).notices.toNat ++ be4 (t.port p).notices.toNat)
      ∧ (∀ k, k < 32 → (u.port p).notices.getLsbD k = ((s.port p).notices.getLsbD k && !mask.getLsbD k))
      ∧ (attention u p = true ↔ (u.port p).notices &&& (s.port p).enable ≠ 0)
      ∧ (mask = 0 → t = s)

/-- SET_NOTICE_MASK stores the mask with bits for kinds not delivered to the port clear; SET_STAGE_MASK stores its low seven bits (R182).
READ_SHIFT and READ_COUNTER change nothing; LATCH_COUNTERS copies counters, totalizers, shift number and state into the port's own
snapshot; READ_COUNTER reads the snapshot: NOT_LATCHED with the FAULT flag when it is empty, RANGE past index 19 (R112, R113, R114). The
encodings of the reply items are the model's reading (log entries 11, 36 and 44). -/
def Obligations.MasksAndSnapshotsAreKeptPerPort : Prop :=
  (∀ (p : PortId) (tag : Byte) (s : State), Ready s p →
      (∀ mask : Word, exec (.setNoticeMask p tag mask) s
        = .next ((s.putPort p { s.port p with enable := mask &&& deliveredMask p }).replied p .setNoticeMask tag .ok
            (be4 (mask &&& deliveredMask p).toNat)))
      ∧ (∀ mask : Byte, exec (.setStageMask p tag mask) s
        = .next ((s.putPort p { s.port p with stageMask := mask.setWidth 7 }).replied p .setStageMask tag .ok
            [(mask.setWidth 7).setWidth 8])))
  ∧
  (∀ (p : PortId) (tag : Byte) (s : State), Ready s p → Kind.offered .readShift p = true →
      exec (.readShift p tag) s = .next (s.replied p .readShift tag .ok s.shift.bytes)
      ∧ exec (.latchCounters p tag) s
        = .next ((s.putPort p { s.port p with snapshot := some ⟨s.shift.counters, s.shift.totals, s.shift.number, s.shift.state⟩ }).replied
            p .latchCounters tag .ok (be2 s.shift.number ++ [s.shift.state.byte]))
      ∧ (∀ index, (s.port p).snapshot = none → exec (.readCounter p tag index) s
        = .next (s.putPort p { s.port p with
            receive := none, reply := [⟨Kind.readCounter.byte, tag, 7, [Code.notLatched.byte]⟩], readCount := 0, lastRead := none }))
      ∧ (∀ (index : Byte) (x : Snapshot), (s.port p).snapshot = some x → index.toNat < 20 → exec (.readCounter p tag index) s
        = .next (s.replied p .readCounter tag .ok
            ((if index.toNat < 15 then be4 (x.counters.getD index.toNat ⟨0, false⟩).value
                ++ [flagByte (x.counters.getD index.toNat ⟨0, false⟩).mark]
              else be4 (x.totals.at (index.toNat - 15))) ++ be2 x.number ++ [x.state.byte])))
      ∧ (∀ (index : Byte) (x : Snapshot), (s.port p).snapshot = some x → 20 ≤ index.toNat →
        ∃ t, exec (.readCounter p tag index) s = .next t ∧ OnlyPort s t p
          ∧ (t.port p).reply.map Frame.payload = [Code.range.byte :: (be2 x.number ++ [x.state.byte])]))

/-- SET_INDICATORS gives each enabled indicator its value bit and raises INDICATOR when one changed; READ_INDICATORS changes nothing
(R184). That both replies carry the four indicators as one mask byte is the model's reading (log entry 11). -/
def Obligations.IndicatorsFollowTheirMasks : Prop :=
  ∀ (tag : Byte) (s : State),
    (∀ enable value : Byte, Ready s .fleet → ∃ t, exec (.setIndicators .fleet tag enable value) s = .next t
      ∧ (∀ i, i < 4 → t.indicators.getLsbD i = if enable.getLsbD i then value.getLsbD i else s.indicators.getLsbD i)
      ∧ t.ports.console = (if t.indicators = s.indicators then s.ports.console else s.ports.console.add .indicator)
      ∧ t.ports.fleet = s.ports.fleet.answer Kind.setIndicators.byte tag (.of .ok [t.indicators.setWidth 8])
      ∧ t = { s with indicators := t.indicators, ports := { s.ports with console := t.ports.console, fleet := t.ports.fleet } })
    ∧ (Ready s .console → exec (.readIndicators .console tag) s
      = .next (s.replied .console .readIndicators tag .ok [s.indicators.setWidth 8]))

/-! ### Stages, filing and Shift Accounting -/

/-- A change of stage: the record is written, the stage notice joins the set of every port whose mask includes the stage entered, the
target is derived afresh, and nothing else moves (R5, R133). The settlement check: a STOPPED hire, unclaimed, with nothing PENDING, a
balance of 0 and an APPROVED entry enters FILING with outcome PAID and its HIRE record joins the queue; any other hire is left as it is
(R19, R21). -/
def Obligations.StageChangesAndTheSettlementCheck : Prop :=
  (∀ (s : State) (sl : SlotId) (h : Hire),
      (s.enterStage sl h).hires = s.hires.put sl h
      ∧ (∀ p, (s.enterStage sl h).port p
          = if (s.port p).stageMask.getLsbD h.stage.bit then (s.port p).add (stageKind sl) else s.port p)
      ∧ (s.enterStage sl h).sign.target = (s.enterStage sl h).derivedTarget
      ∧ s.enterStage sl h = { s with
          hires := (s.enterStage sl h).hires, ports := (s.enterStage sl h).ports, sign := (s.enterStage sl h).sign })
  ∧
  (∀ (s : State) (sl : SlotId),
      ((s.hire sl).stage = .stopped → (s.hire sl).claim = none → (∀ e ∈ (s.hire sl).payments, e.state ≠ .pending) →
        (s.hire sl).balance = 0 → (∃ e ∈ (s.hire sl).payments, e.state = .approved) →
          (s.settle sl).hire sl = { s.hire sl with stage := .filing, outcome := some .paid }
          ∧ ∃ r, r = ({ s.hire sl with stage := .filing, outcome := some .paid } : Hire).record sl
              ∧ (s.settle sl).journal.queue = s.journal.queue ++ [⟨s.shift.number, s.clock, .hire r⟩])
      ∧ ((s.hire sl).stage ≠ .stopped ∨ (s.hire sl).claim.isSome ∨ (∃ e ∈ (s.hire sl).payments, e.state = .pending)
          ∨ (s.hire sl).balance ≠ 0 ∨ (∀ e ∈ (s.hire sl).payments, e.state ≠ .approved) → s.settle sl = s))

/-- The filing of a HIRE record complete: the hire is added to counters 1 to 3 and 5 to 12 and to the totalizers, the slot is FREE and
cleared with its stage notice, a totalizer write is asked for, and in CLOSING with every slot FREE the SHIFT record is handed over, its
counters those of this event (R23, R102, R106, R108, R109). The SHIFT record filed: the shift is CLOSED with no summary in flight, every
port is told, a totalizer write is asked for, and counters, number, driver, dates, totalizers and offline figures stand (R103). -/
def Obligations.FiledRecordsAreAccounted : Prop :=
  (∀ (s : State) (sl : SlotId) (t : State) (h : Hire), t = s.completeHire sl → h = s.hire sl →
      t.hires = s.hires.put sl Hire.cleared
      ∧ (CountersLaw s.shift →
        t.shift.counter .hiresFiled = (s.shift.counter .hiresFiled).add 1
        ∧ t.shift.counter .hiresUnpaid = (s.shift.counter .hiresUnpaid).add (if h.outcome = some .unpaid then 1 else 0)
        ∧ t.shift.counter .hiredMetres = (s.shift.counter .hiredMetres).add h.metres
        ∧ t.shift.counter .steps = (s.shift.counter .steps).add h.steps
        ∧ t.shift.counter .meteredTotal = (s.shift.counter .meteredTotal).add h.metered
        ∧ t.shift.counter .extrasTotal = (s.shift.counter .extrasTotal).add h.extrasAmount
        ∧ t.shift.counter .tipsTotal = (s.shift.counter .tipsTotal).add
            (((h.payments.filter (fun e => e.state = .approved)).map Payment.tip).sum)
        ∧ t.shift.counter .cardTotal = (s.shift.counter .cardTotal).add
            (((h.payments.filter (fun e => e.state = .approved ∧ e.method = .card)).map Payment.amount).sum)
        ∧ t.shift.counter .cashTotal = (s.shift.counter .cashTotal).add
            (((h.payments.filter (fun e => e.state = .approved ∧ e.method = .cash)).map Payment.amount).sum)
        ∧ t.shift.counter .accountTotal = (s.shift.counter .accountTotal).add
            (((h.payments.filter (fun e => e.state = .approved ∧ e.method = .account)).map Payment.amount).sum)
        ∧ t.shift.counter .offlineCardTotal = (s.shift.counter .offlineCardTotal).add
            (((h.payments.filter (fun e => e.state = .approved ∧ e.method = .card ∧ e.route = some .offline)).map Payment.amount).sum)
        ∧ ∀ id ∈ [CounterId.vacantMetres, .lateApprovals, .suspensions, .powerInterruptions], t.shift.counter id = s.shift.counter id)
      ∧ t.shift.totals = ⟨s.shift.totals.totalMetres, (s.shift.totals.hiredMetres + h.metres) % 1000000000,
          (s.shift.totals.hires + 1) % 1000000000, (s.shift.totals.steps + h.steps) % 1000000000,
          (s.shift.totals.fare + (h.metered + h.extrasAmount)) % 1000000000⟩
      ∧ t.shift.totalsWrite.isSome = true
      ∧ (∀ p, (s.port p).stageMask.getLsbD 0 = true → (t.port p).holds (stageKind sl) = true)
      ∧ (s.shift.state ≠ .closing → t.journal = s.journal
          ∧ ∀ p, t.port p = if (s.port p).stageMask.getLsbD 0 then (s.port p).add (stageKind sl) else s.port p)
      ∧ (s.shift.state = .closing → s.shift.summary = false → (s.hires.put sl Hire.cleared).allFree = true →
          t.shift.summary = true
          ∧ t.journal.queue = s.journal.queue ++ [⟨s.shift.number, s.clock, .shift (s.shift.driver.getD 0)
              (s.shift.openTime.getD s.clock) (s.shift.closeTime.getD s.clock) t.shift.counters⟩]))
  ∧
  (∀ s : State, ∃ t, t = s.completeShift ∧ t.shift.state = .closed ∧ t.shift.summary = false
      ∧ (∀ p, (t.port p).holds .shiftClosed = true) ∧ t.shift.totalsWrite.isSome = true
      ∧ t.shift.counters = s.shift.counters ∧ t.shift.number = s.shift.number ∧ t.shift.driver = s.shift.driver
      ∧ t.shift.openTime = s.shift.openTime ∧ t.shift.closeTime = s.shift.closeTime ∧ t.shift.totals = s.shift.totals
      ∧ t.shift.offlineTotal = s.shift.offlineTotal ∧ t.shift.ceiling = s.shift.ceiling
      ∧ t.sign.target = ⟨none, false⟩ ∧ t.journal = s.journal ∧ t.hires = s.hires)

/-- The fifteen shift counters, in their order: an addition past 4,294,967,295 leaves a counter there with its mark set, and once marked
it stays; an addition to one leaves the others as they were; OPEN_SHIFT clears them with their marks (R105). -/
def Obligations.CountersSaturateWithTheirMarks : Prop :=
  (∀ (c : Counter) (n : Nat),
    (c.mark = false → c.value + n ≤ 4294967295 → c.add n = ⟨c.value + n, false⟩)
    ∧ (c.mark = false → 4294967295 < c.value + n → c.add n = ⟨4294967295, true⟩)
    ∧ (c.mark = true → c.add n = c))
  ∧ [CounterId.hiresFiled, .hiresUnpaid, .hiredMetres, .vacantMetres, .steps, .meteredTotal, .extrasTotal, .tipsTotal, .cardTotal,
      .cashTotal, .accountTotal, .offlineCardTotal, .lateApprovals, .suspensions, .powerInterruptions].map CounterId.place = List.range 15
  ∧ (∀ (x : ShiftAccounting) (id : CounterId) (n : Nat), CountersLaw x → CountersLaw (x.count id n)
      ∧ (x.count id n).counter id = (x.counter id).add n ∧ ∀ other, other ≠ id → (x.count id n).counter other = x.counter other)
  ∧ (∀ (s : State) (driver : Nat), (s.openShift driver).shift.counters = List.replicate 15 ⟨0, false⟩)

/-- The filing of the head of the queue: it takes the next sequence number and the writer's place when writing is open and the slot is
free; while one is in flight nothing begins (R121). A record at the head of the queue that finds no slot: a HIRE or SHIFT record goes to
the end of the unfiled list without a number and its filing is complete; a record of another kind is dropped (R124). -/
def Obligations.FilingTakesAPlaceOrGoesUnfiled : Prop :=
  (∀ s : State,
      (∀ r rest, s.journal.inFlight = none → s.journal.queue = r :: rest → s.journal.state ≠ .fault .retiredList →
        s.journal.slotFree s.journal.writer = true →
        s.fileOn = { s with journal := { s.journal with inFlight := some ⟨s.journal.nextSeq, s.journal.writer⟩ } })
      ∧ (s.journal.inFlight.isSome → s.fileOn = s) ∧ (s.journal.queue = [] → s.fileOn = s))
  ∧
  (∀ (r : JournalRecord) (s : State), s.journal.inFlight = none → s.journal.queue = [r] →
      (s.journal.state = .fault .retiredList ∨ s.journal.slotFree s.journal.writer = false) →
      (∀ x, r.body = .hire x → s.shift.state ≠ .closing →
        s.fileOn.journal.unfiled = s.journal.unfiled ++ [r] ∧ s.fileOn.journal.queue = [] ∧ s.fileOn.journal.inFlight = none
          ∧ s.fileOn.hires = s.hires.put x.slot Hire.cleared ∧ s.fileOn.journal.store = s.journal.store
          ∧ s.fileOn.journal.nextSeq = s.journal.nextSeq)
      ∧ (∀ d o c k, r.body = .shift d o c k →
        s.fileOn.journal.unfiled = s.journal.unfiled ++ [r] ∧ s.fileOn.journal.queue = [] ∧ s.fileOn.shift.state = .closed
          ∧ s.fileOn.shift.summary = false ∧ (∀ p, (s.fileOn.port p).holds .shiftClosed = true) ∧ s.fileOn.hires = s.hires)
      ∧ (r.body.reserved = false → s.fileOn = { s with journal := { s.journal with queue := [] } }.updateLow))

/-- OPEN_SHIFT, every check of R97 passing, opens the shift as R98 sets out: next number, driver, open time, counters and offline total at
0, ceiling and pooling from the configuration, next hire number 1, vacant remainder 0, override AUTO. SET_POOLING writes the flag of an
OPEN shift and derives the target afresh; in CLOSING and CLOSED it is refused SHIFT_STATE, and a value outside its encoding is refused
RANGE (R99, R185). -/
def Obligations.ShiftsOpenAndPool : Prop :=
  (∀ (tag : Byte) (driver : Half) (s : State), Ready s .console → s.shift.state = .closed → 1 ≤ driver.toNat →
      s.tariffs.activation = none → s.tariffs.configWrite = none → s.partClear = .idle → s.sign.test = none →
      s.tariffs.active.hasTariff = true → s.journal.state = .normal → 4 ≤ s.journal.free →
      exec (.openShift .console tag driver) s
        = .next (({ s with
            shift := { s.shift with
              state := .opened
              number := if s.shift.number < 65535 then s.shift.number + 1 else 1
              driver := some driver.toNat
              openTime := some s.clock
              closeTime := none
              summary := false
              counters := List.replicate 15 ⟨0, false⟩
              ceiling := s.tariffs.config.ceiling
              pooling := s.tariffs.config.pooling
              offlineTotal := 0 }
            nextHire := 1
            vacantRem := 0
            sign := { s.sign with override := .auto } }.rederive).replied .console .openShift tag .ok
              (be2 (if s.shift.number < 65535 then s.shift.number + 1 else 1))))
  ∧
  (∀ (tag : Byte) (s : State), Ready s .fleet →
      (∀ on : Bool, s.shift.state = .opened → exec (.setPooling .fleet tag (flagByte on)) s
        = .next (({ s with shift := { s.shift with pooling := on } }.rederive).replied .fleet .setPooling tag .ok []))
      ∧ (∀ on : Bool, s.shift.state ≠ .opened → exec (.setPooling .fleet tag (flagByte on)) s
        = .next (s.replied .fleet .setPooling tag .shiftState []))
      ∧ (∀ b : Byte, 1 < b.toNat → exec (.setPooling .fleet tag b) s = .next (s.replied .fleet .setPooling tag .range [])))

/-- CLOSE_SHIFT on an OPEN shift makes it CLOSING, with every BOOKED slot FREE and the other slots as they were; with none aboard the
SHIFT record joins the queue at once, and its filing begins when none is in flight; on a shift not OPEN it changes nothing (R100, R102).
-/
def Obligations.CloseShiftBeginsTheDrain : Prop :=
  ∀ (p : PortId) (tag : Byte) (s : State), Ready s p → Kind.offered .closeShift p = true →
    (s.shift.state = .opened → s.journal.steady →
      ∃ t, exec (.closeShift p tag) s = .next t ∧ t.shift.state = .closing ∧ t.shift.closeTime = some s.clock
        ∧ (∀ sl, t.hire sl = if (s.hire sl).stage = .booked then Hire.cleared else s.hire sl)
        ∧ t.shift.counters = s.shift.counters
        ∧ ((∀ sl, (s.hire sl).stage = .free ∨ (s.hire sl).stage = .booked) → s.shift.summary = false →
            t.shift.summary = true
              ∧ t.journal.queue = s.journal.queue ++ [⟨s.shift.number, s.clock, .shift (s.shift.driver.getD 0)
                  (s.shift.openTime.getD s.clock) s.clock s.shift.counters⟩]
              ∧ (s.journal.inFlight = none → t.journal.inFlight = some ⟨s.journal.nextSeq, s.journal.writer⟩))
        ∧ ((∃ sl, (s.hire sl).stage ≠ .free ∧ (s.hire sl).stage ≠ .booked) →
            t.shift.summary = s.shift.summary ∧ t.journal.queue = s.journal.queue)
        ∧ (t.port p).reply = replyFrames Kind.closeShift.byte tag false [[Code.ok.byte]])
    ∧ (s.shift.state ≠ .opened → exec (.closeShift p tag) s = .next (s.replied p .closeShift tag .ok []))

/-- The end of a totalizer write: the copy verified becomes current with status OK; a failure is written again twice and at the third ends
BEHIND, or LOST while LOST stands; a remembered request begins the next write with the values as they stand (R109, R111). The pulse that
brings the metres gained since the last hand-over to 100 asks for a totalizer write: it begins at once with the values as they then stand,
or is remembered while one is in flight (R109). That the 100 metre row is the whole pulse (log entry 4), that its write takes the totals
after all the metres of the pulse, the overshoot not counted (log entry 31), and that LOST stands until a write succeeds (log entry 21)
are the model's. -/
def Obligations.TotalizerWritesBeginAndEnd : Prop :=
  (∀ (s : State) (w : TotalsWrite), s.power = .running → s.shift.totalsWrite = some w →
      (∃ t, exec .totalizerWriteComplete s = .next t ∧ t = { s with shift := t.shift }
        ∧ t.shift.totalsSection.current = some w.values ∧ t.shift.totalsStatus = .ok ∧ t.shift.totals = s.shift.totals
        ∧ t.shift.totalsWrite = (if s.shift.remembered then some ⟨s.shift.totals, 0⟩ else none) ∧ t.shift.remembered = false)
      ∧ (w.failures < 2 → exec .totalizerWriteFail s
        = .next { s with shift := { s.shift with totalsWrite := some { w with failures := w.failures + 1 } } })
      ∧ (2 ≤ w.failures → ∃ t, exec .totalizerWriteFail s = .next t ∧ t = { s with shift := t.shift }
        ∧ t.shift.totalsSection = s.shift.totalsSection
        ∧ t.shift.totalsStatus = (if s.shift.totalsStatus = .lost then .lost else .behind)
        ∧ t.shift.totalsWrite = (if s.shift.remembered then some ⟨s.shift.totals, 0⟩ else none)))
  ∧
  (∀ s : State, s.power = .running → s.shift.gained < 100 → 100 ≤ s.shift.gained + metresDrawn s.tariffs.config.k s.odoRem →
      ∃ t, exec .totalMetres100m s = .next t ∧ exec .wheelPulse s = .next t
        ∧ (s.shift.totalsWrite = none → t.shift.totalsWrite = some ⟨t.shift.totals, 0⟩ ∧ t.shift.gained = 0)
        ∧ (s.shift.totalsWrite.isSome → t.shift.totalsWrite = s.shift.totalsWrite ∧ t.shift.remembered = true))

/-! ### The Hire Controller -/

/-- BOOK, every check of R7 passing, makes the slot BOOKED with the reference and the clock time now plus the deadline; CANCEL_BOOKING
frees a BOOKED slot and is refused BAD_STAGE on any other (R7, R9). CLOSE_UNPAID files an unclaimed STOPPED hire with nothing PENDING,
PAID when its balance is 0 and UNPAID otherwise; a claimed one is refused CLAIMED and any other stage BAD_STAGE (R20, R21). READ_HIRE
answers with the record as it stands, the stage alone for a FREE slot, and changes nothing but the expiry of the reader's own claim, which
runs anew from now (R6, R75). That the reply is formed before the renewal (log entry 13), the bytes of the record (log entry 11) and a
deadline past 2099 (log entry 19) are the model's readings. -/
def Obligations.BookingsClosesAndReads : Prop :=
  (∀ (tag slot : Byte) (sl : SlotId) (s : State), Ready s .fleet → slotOf slot = some sl →
      (∀ (ref : BitVec 64) (d : Half), 1 ≤ d.toNat → d.toNat ≤ 3600 → s.shift.state = .opened → (s.hire sl).stage = .free →
        (s.shift.pooling = true ∨ AloneIn s sl) → s.journal.state = .normal → s.hires.occupied + 2 ≤ s.journal.free →
        exec (.book .fleet tag slot ref d) s
          = .next ((s.enterStage sl { Hire.cleared with stage := .booked, booking := some ⟨ref, s.clock.plus d.toNat⟩ }).replied
              .fleet .book tag .ok []))
      ∧ ((s.hire sl).stage = .booked → exec (.cancelBooking .fleet tag slot) s
          = .next ((s.enterStage sl Hire.cleared).replied .fleet .cancelBooking tag .ok []))
      ∧ ((s.hire sl).stage ≠ .booked → exec (.cancelBooking .fleet tag slot) s
          = .next (s.replied .fleet .cancelBooking tag .badStage [])))
  ∧
  (∀ (tag slot : Byte) (sl : SlotId) (s : State), Ready s .console → slotOf slot = some sl →
      ((s.hire sl).stage = .stopped → (s.hire sl).claim = none → (∀ e ∈ (s.hire sl).payments, e.state ≠ .pending) →
        exec (.closeUnpaid .console tag slot) s
          = .next (((s.enterFiling sl (if (s.hire sl).balance = 0 then .paid else .unpaid)).fileOn).replied
              .console .closeUnpaid tag .ok []))
      ∧ ((s.hire sl).stage = .stopped → (s.hire sl).claim.isSome → exec (.closeUnpaid .console tag slot) s
          = .next (s.replied .console .closeUnpaid tag .claimed []))
      ∧ ((s.hire sl).stage ≠ .stopped → exec (.closeUnpaid .console tag slot) s
          = .next (s.replied .console .closeUnpaid tag .badStage [])))
  ∧
  (∀ (p : PortId) (tag slot : Byte) (sl : SlotId) (s : State), Ready s p → slotOf slot = some sl →
      ((s.hire sl).claimedBy p = false → exec (.readHire p tag slot) s
        = .next (s.replied p .readHire tag .ok (if (s.hire sl).stage = .free then [0] else (s.hire sl).bytes s.timeBase)))
      ∧ ((s.hire sl).claimedBy p = true → exec (.readHire p tag slot) s
        = .next ((s.putHire sl { s.hire sl with
            claim := some ⟨p, s.timeBase + s.tariffs.config.claimTimeout * 100⟩ }).replied p .readHire tag .ok
              (if (s.hire sl).stage = .free then [0] else (s.hire sl).bytes s.timeBase)))
      ∧ (∀ b : Byte, slotOf b = none → exec (.readHire p tag b) s = .next (s.replied p .readHire tag .noSuch [])))

/-- START_HIRE, every check of R10 passing, sets the hire up as R11 sets out, in METERING for a FIXED tariff or one with neither initial
allowance and in ENGAGED otherwise; the reply carries the hire number and the tariff id. -/
def Obligations.StartHireSetsUpTheHire : Prop :=
  ∀ (tag slot choice : Byte) (sl : SlotId) (t : Tariff) (s : State), Ready s .console → slotOf slot = some sl →
    ((s.hire sl).stage = .free ∨ (s.hire sl).stage = .booked) → s.shift.state = .opened → s.journal.state = .normal →
    s.hires.occupied + 2 ≤ s.journal.free → (s.shift.pooling = true ∨ AloneIn s sl) →
    (choice ≠ 0 → choice.toNat ≤ 8 ∧ t.manual = true) →
    s.tariffs.active.tariff (if choice = 0 then calendarChoice s.tariffs.active.calendar s.clock else choice.toNat) = some t →
    ∃ (id : Nat) (h : Hire), id = (if choice = 0 then calendarChoice s.tariffs.active.calendar s.clock else choice.toNat)
      ∧ exec (.startHire .console tag slot choice) s
        = .next (({ s with nextHire := if s.nextHire < 65535 then s.nextHire + 1 else 1 }.enterStage sl h).replied .console .startHire
            tag .ok (be2 s.nextHire ++ be1 id))
      ∧ h.stage = (if t.kind = .fixed ∨ t.d0 = 0 ∧ t.t0 = 0 then .metering else .engaged)
      ∧ h.number = some s.nextHire ∧ h.startTime = s.clock ∧ h.tariffId = id ∧ h.tariffKind = t.kind ∧ h.flagFall = t.flagFall
      ∧ h.metered = t.flagFall ∧ h.band = 1 ∧ h.residue = 0 ∧ h.distAcc = 0 ∧ h.timeAcc = 0 ∧ h.steps = 0 ∧ h.pulses = 0
      ∧ h.metres = 0 ∧ h.metreRem = 0 ∧ h.capped = false ∧ h.extras = [] ∧ h.payments = [] ∧ h.extrasAmount = 0
      ∧ h.stopTime = none ∧ h.suspendReason = none ∧ h.resumeStage = none ∧ h.claim = none ∧ h.outcome = none
      ∧ h.pendingStop = false ∧ h.booking = (s.hire sl).booking
      ∧ h.distInitial = decide (t.kind = .metered ∧ 0 < t.d0) ∧ h.timeInitial = decide (t.kind = .metered ∧ 0 < t.t0)

/-- SUSPEND holds a running hire and counts a suspension; RESUME returns it to its resume stage, or stops it when a stop is pending;
STOP_HIRE stops a running hire with its accumulators cleared, sets pending stop on a SUSPENDED one, and is OK without effect on one that
is STOPPED and unclaimed, or FILING (R13 to R16). -/
def Obligations.SuspendResumeAndStop : Prop :=
  ∀ (tag slot : Byte) (sl : SlotId) (s : State), Ready s .console → slotOf slot = some sl →
    ((s.hire sl).stage = .engaged ∨ (s.hire sl).stage = .metering →
      exec (.suspend .console tag slot) s
        = .next (((s.enterStage sl { s.hire sl with
            stage := .suspended, suspendReason := some .driver, resumeStage := some (s.hire sl).stage, pendingStop := false }).count
            .suspensions 1).replied .console .suspend tag .ok [])
      ∧ exec (.stopHire .console tag slot) s
        = .next ((s.enterStage sl { s.hire sl with
            stage := .stopped, stopTime := some s.clock, distAcc := 0, timeAcc := 0, suspendReason := none, resumeStage := none,
            pendingStop := false }).replied .console .stopHire tag .ok []))
    ∧ ((s.hire sl).stage = .suspended →
      (∀ st, (s.hire sl).resumeStage = some st → (s.hire sl).pendingStop = false → exec (.resume .console tag slot) s
        = .next ((s.enterStage sl { s.hire sl with stage := st, suspendReason := none, resumeStage := none }).replied
            .console .resume tag .ok []))
      ∧ ((s.hire sl).pendingStop = true → exec (.resume .console tag slot) s
        = .next ((s.enterStage sl { s.hire sl with
            stage := .stopped, stopTime := some s.clock, distAcc := 0, timeAcc := 0, suspendReason := none, resumeStage := none,
            pendingStop := false }).replied .console .resume tag .ok []))
      ∧ exec (.stopHire .console tag slot) s
        = .next ((s.putHire sl { s.hire sl with pendingStop := true }).replied .console .stopHire tag .ok []))
    ∧ ((s.hire sl).stage = .stopped → (s.hire sl).claim = none → exec (.stopHire .console tag slot) s
        = .next (s.replied .console .stopHire tag .ok []))
    ∧ ((s.hire sl).stage = .stopped → (s.hire sl).claim.isSome → exec (.stopHire .console tag slot) s
        = .next (s.replied .console .stopHire tag .claimed []))
    ∧ ((s.hire sl).stage = .filing → exec (.stopHire .console tag slot) s = .next (s.replied .console .stopHire tag .ok []))
    ∧ ((s.hire sl).stage = .free ∨ (s.hire sl).stage = .booked → exec (.stopHire .console tag slot) s
        = .next (s.replied .console .stopHire tag .badStage []))

/-- ADD_EXTRA raises the count of a listed extra by one in its place, or puts the pair (id, 1) at the end of the list, and raises the
extras amount by the extra's amount; REMOVE_EXTRA lowers the count by one, the pair leaving the list at 0 and the others keeping their
order, and the extras amount by the extra's amount, or, when a start-up has emptied the extra's place, by a free value (log entry 1). The
settlement check follows each (R17, R18, R52). -/
def Obligations.ExtrasAreAddedAndRemoved : Prop :=
  ∀ (tag slot extra : Byte) (sl : SlotId) (id : Nat) (h : Hire) (s : State), Ready s .console → slotOf slot = some sl →
    id = extra.toNat → h = s.hire sl →
    (h.stage = .engaged ∨ h.stage = .metering ∨ h.stage = .suspended ∨ h.stage = .stopped) → h.claim = none →
    (∀ e, s.tariffs.active.extra id = some e → (h.stage = .stopped → e.afterStop = true) → extraCount h.extras id + 1 ≤ e.maxCount →
      h.metered + h.extrasAmount + e.amount ≤ 999999 →
      ∃ list, exec (.addExtra .console tag slot extra) s
          = .next (((s.putHire sl { h with extras := list, extrasAmount := h.extrasAmount + e.amount }).settleAndFile sl).replied
              .console .addExtra tag .ok [])
        ∧ (∀ before n rest, h.extras = before ++ (id, n) :: rest → (∀ x ∈ before, x.1 ≠ id) → list = before ++ (id, n + 1) :: rest)
        ∧ ((∀ x ∈ h.extras, x.1 ≠ id) → list = h.extras ++ [(id, 1)]))
    ∧ (∀ before n rest list, h.payments = [] → h.extras = before ++ (id, n) :: rest → (∀ x ∈ before, x.1 ≠ id) →
        list = before ++ (if n ≤ 1 then rest else (id, n - 1) :: rest) →
        (∀ e, s.tariffs.active.extra id = some e → exec (.removeExtra .console tag slot extra) s
          = .next (((s.putHire sl { h with extras := list, extrasAmount := h.extrasAmount - e.amount }).settleAndFile sl).replied
              .console .removeExtra tag .ok []))
        ∧ (s.tariffs.active.extra id = none → ∃ amount, exec (.removeExtra .console tag slot extra) s
          = .next ((({ s with draws := s.draws + 1 }.putHire sl { h with
              extras := list, extrasAmount := h.extrasAmount - amount }).settleAndFile sl).replied .console .removeExtra tag .ok [])))

/-! ### The Settlement Unit -/

/-- CLAIM grants an unclaimed STOPPED hire to a port that holds no other claim, with expiry at the count now plus the claim timeout;
renews the port's own claim; and is refused CLAIMED, NOT_PERMITTED or BAD_STAGE otherwise (R74, R75). That the reply to a renewal carries
no seconds until expiry is the model's reading (log entry 12). RELEASE by the claimant expires every PENDING entry, drops the claim and
runs the settlement check; an unclaimed hire answers NOT_CLAIMANT, one the other port holds CLAIMED, one not STOPPED BAD_STAGE (R77). That
an entry made EXPIRED keeps its route and reference absent is the model's reading (log entry 52). -/
def Obligations.ClaimsAreGrantedAndReleased : Prop :=
  (∀ (p : PortId) (tag slot : Byte) (sl : SlotId) (s : State), Ready s p → p ≠ .console → slotOf slot = some sl →
      ((s.hire sl).stage = .stopped →
        ((s.hire sl).claim = none → s.holdsClaim p = false → exec (.claim p tag slot) s
          = .next ((s.putHire sl { s.hire sl with
              claim := some ⟨p, s.timeBase + s.tariffs.config.claimTimeout * 100⟩ }).replied p .claim tag .ok
                (be2 s.tariffs.config.claimTimeout)))
        ∧ ((s.hire sl).claim = none → s.holdsClaim p = true → exec (.claim p tag slot) s
          = .next (s.replied p .claim tag .notPermitted []))
        ∧ (∀ n, (s.hire sl).claim = some ⟨p, n⟩ → exec (.claim p tag slot) s
          = .next ((s.putHire sl { s.hire sl with
              claim := some ⟨p, s.timeBase + s.tariffs.config.claimTimeout * 100⟩ }).replied p .claim tag .ok []))
        ∧ (∀ c, (s.hire sl).claim = some c → c.port ≠ p → exec (.claim p tag slot) s
          = .next (s.replied p .claim tag .claimed [])))
      ∧ ((s.hire sl).stage ≠ .stopped → exec (.claim p tag slot) s = .next (s.replied p .claim tag .badStage [])))
  ∧
  (∀ (p : PortId) (tag slot : Byte) (sl : SlotId) (s : State), Ready s p → p ≠ .console → slotOf slot = some sl →
      ((s.hire sl).stage = .stopped → (s.hire sl).claimedBy p = true → exec (.release p tag slot) s
        = .next (((s.putHire sl { s.hire sl with
            payments := (s.hire sl).payments.map (fun e => if e.state = .pending then { e with state := .expired } else e)
            claim := none }).settleAndFile sl).replied p .release tag .ok []))
      ∧ ((s.hire sl).stage = .stopped → (s.hire sl).claim = none → exec (.release p tag slot) s
        = .next (s.replied p .release tag .notClaimant []))
      ∧ (∀ c, (s.hire sl).stage = .stopped → (s.hire sl).claim = some c → c.port ≠ p → exec (.release p tag slot) s
        = .next (s.replied p .release tag .claimed []))
      ∧ ((s.hire sl).stage ≠ .stopped → exec (.release p tag slot) s = .next (s.replied p .release tag .badStage [])))

/-- BEGIN_PAYMENT by the claimant places a PENDING entry at the end of the list, due at the count now plus the payment timeout, and renews
the claim; a fifth entry is refused FULL, and cash, an amount of 0 or above the balance, or a tip above 99,999, RANGE (R80). POST_CASH
places an APPROVED cash entry on an unclaimed STOPPED hire and runs the settlement check; on a claimed hire it is refused CLAIMED, with
four entries FULL (R90). REVERSE by the claimant makes an APPROVED card or account entry REVERSED, takes an OFFLINE amount from the
offline total and renews the claim; an index outside the list is NO_SUCH, an entry not APPROVED or in cash NOT_PERMITTED (R89). -/
def Obligations.PaymentsAreBegunPostedAndReversed : Prop :=
  (∀ (p : PortId) (tag slot method : Byte) (amount tip : Word) (sl : SlotId) (s : State), Ready s p → p ≠ .console →
      slotOf slot = some sl → (s.hire sl).stage = .stopped → (s.hire sl).claimedBy p = true →
      (∀ m, (s.hire sl).payments.length < 4 → methodOf method = some m → m ≠ .cash → 1 ≤ amount.toNat →
        amount.toNat ≤ (s.hire sl).balance → tip.toNat ≤ 99999 → exec (.beginPayment p tag slot method amount tip) s
          = .next ((s.putHire sl { s.hire sl with
              claim := some ⟨p, s.timeBase + s.tariffs.config.claimTimeout * 100⟩
              payments := (s.hire sl).payments ++ [⟨m, amount.toNat, tip.toNat, none, none, .pending, p,
                some (s.timeBase + s.tariffs.config.paymentTimeout * 100), false⟩] }).replied p .beginPayment tag .ok
                  [BitVec.ofNat 8 ((s.hire sl).payments.length + 1)]))
      ∧ (4 ≤ (s.hire sl).payments.length → exec (.beginPayment p tag slot method amount tip) s
          = .next (s.replied p .beginPayment tag .full []))
      ∧ ((s.hire sl).payments.length < 4 →
          (methodOf method = none ∨ methodOf method = some .cash ∨ amount.toNat = 0 ∨ (s.hire sl).balance < amount.toNat
            ∨ 99999 < tip.toNat) →
          exec (.beginPayment p tag slot method amount tip) s = .next (s.replied p .beginPayment tag .range [])))
  ∧
  (∀ (tag slot : Byte) (amount tip : Word) (sl : SlotId) (s : State), Ready s .console → slotOf slot = some sl →
      (s.hire sl).stage = .stopped →
      ((s.hire sl).claim = none → (s.hire sl).payments.length < 4 → 1 ≤ amount.toNat → amount.toNat ≤ (s.hire sl).balance →
        tip.toNat ≤ 99999 → exec (.postCash .console tag slot amount tip) s
          = .next (((s.putHire sl { s.hire sl with
              payments := (s.hire sl).payments ++ [⟨.cash, amount.toNat, tip.toNat, some .online, none, .approved, .console, none,
                false⟩] }).settleAndFile sl).replied .console .postCash tag .ok [BitVec.ofNat 8 ((s.hire sl).payments.length + 1)]))
      ∧ ((s.hire sl).claim = none → 4 ≤ (s.hire sl).payments.length → exec (.postCash .console tag slot amount tip) s
          = .next (s.replied .console .postCash tag .full []))
      ∧ ((s.hire sl).claim.isSome → exec (.postCash .console tag slot amount tip) s
          = .next (s.replied .console .postCash tag .claimed [])))
  ∧
  (∀ (p : PortId) (tag slot entry : Byte) (sl : SlotId) (s : State), Ready s p → p ≠ .console → slotOf slot = some sl →
      (s.hire sl).stage = .stopped → (s.hire sl).claimedBy p = true →
      (∀ e, 1 ≤ entry.toNat → (s.hire sl).payments[entry.toNat - 1]? = some e →
        (e.state = .approved → e.method ≠ .cash → exec (.reverse p tag slot entry) s
          = .next (({ s with shift := { s.shift with
                offlineTotal := if e.route = some Route.offline then s.shift.offlineTotal - e.amount else s.shift.offlineTotal } }.putHire sl
              { s.hire sl with
                claim := some ⟨p, s.timeBase + s.tariffs.config.claimTimeout * 100⟩
                payments := (s.hire sl).payments.set (entry.toNat - 1) { e with state := .reversed } }).replied p .reverse tag .ok []))
        ∧ (e.state ≠ .approved ∨ e.method = .cash → exec (.reverse p tag slot entry) s
          = .next (s.replied p .reverse tag .notPermitted [])))
      ∧ (entry.toNat = 0 ∨ (s.hire sl).payments.length < entry.toNat → exec (.reverse p tag slot entry) s
          = .next (s.replied p .reverse tag .noSuch [])))

/-- A PAYMENT_RESULT from the claimant for a PENDING entry: DECLINED and APPROVED, ONLINE are written into it; APPROVED, OFFLINE is
accepted while the offline total stays within the ceiling and raises it, else OVER_CEILING changes nothing; OFFLINE for an account is
RANGE; from a port that is not the claimant it is CLAIMED (R82, R83, R84). A refusal carries the entry's state, PENDING. -/
def Obligations.ResultsAnswerPendingEntries : Prop :=
  ∀ (p : PortId) (tag : Byte) (f : ResultFields) (sl : SlotId) (e : Payment) (s : State), Ready s p → p ≠ .console →
    SpeaksOf s sl f e → (s.hire sl).stage = .stopped → e.state = .pending →
    ((s.hire sl).claimedBy p = true →
      (∀ r : Route, f.result = 1 → routeOf f.route = some r → ¬(r = Route.offline ∧ e.method = .account) → exec (.paymentResult p tag f) s
        = .next ((s.putHire sl { s.hire sl with
            claim := some ⟨p, s.timeBase + s.tariffs.config.claimTimeout * 100⟩
            payments := (s.hire sl).payments.set (f.entry.toNat - 1)
              { e with state := .declined, route := some r, reference := some f.reference } }).replied p .paymentResult tag .ok []))
      ∧ (f.result = 0 → f.route = 0 → exec (.paymentResult p tag f) s
        = .next ((s.putHire sl { s.hire sl with
            claim := some ⟨p, s.timeBase + s.tariffs.config.claimTimeout * 100⟩
            payments := (s.hire sl).payments.set (f.entry.toNat - 1)
              { e with state := .approved, route := some .online, reference := some f.reference } }).replied
                p .paymentResult tag .ok []))
      ∧ (f.result = 0 → f.route = 1 → e.method = .card → s.shift.offlineTotal + e.amount ≤ s.shift.ceiling →
        exec (.paymentResult p tag f) s
          = .next (({ s with shift := { s.shift with offlineTotal := s.shift.offlineTotal + e.amount } }.putHire sl { s.hire sl with
              claim := some ⟨p, s.timeBase + s.tariffs.config.claimTimeout * 100⟩
              payments := (s.hire sl).payments.set (f.entry.toNat - 1)
                { e with state := .approved, route := some .offline, reference := some f.reference } }).replied
                  p .paymentResult tag .ok []))
      ∧ (f.result = 0 → f.route = 1 → e.method = .card → s.shift.ceiling < s.shift.offlineTotal + e.amount →
        exec (.paymentResult p tag f) s = .next (s.replied p .paymentResult tag .overCeiling [1, 0]))
      ∧ (f.result.toNat ≤ 1 → f.route = 1 → e.method = .account →
        exec (.paymentResult p tag f) s = .next (s.replied p .paymentResult tag .range [1, 0])))
    ∧ ((s.hire sl).claimedBy p = false → f.result.toNat ≤ 1 → f.route.toNat ≤ 1 →
        exec (.paymentResult p tag f) s = .next (s.replied p .paymentResult tag .claimed [1, 0]))

/-- A result for an EXPIRED entry, from the port that created it, is answered LATE: an APPROVED one sets the mark of an entry of a STOPPED
hire and is recorded once, in FILING it is recorded without a mark, and a DECLINED one changes nothing; from another port it is
NOT_CLAIMANT. A result for a hire that has left its slot is LATE too, an APPROVED one being recorded from the request (R86, R87). The
claim of the requesting port, if it is the claimant, is renewed. A late approval adds one to the late-approvals counter, is handed to the
Journal when it is outside FAULT with free slots above the reserve and no recovery runs, and raises LATE_APPROVAL to the Fleet port; no
hire changes (R88, R120, R130). That approvals taken in FILING are recorded each time is the model's reading (log entry 30). -/
def Obligations.LateResultsLeaveATrace : Prop :=
  (∀ (p : PortId) (tag : Byte) (f : ResultFields) (sl : SlotId) (s : State), Ready s p → p ≠ .console → f.route.toNat ≤ 1 →
      (∀ e, SpeaksOf s sl f e → e.state = .expired →
        ((s.hire sl).stage = .stopped → e.port = p →
          (f.result = 1 ∨ f.result = 0 ∧ e.late = true → exec (.paymentResult p tag f) s
            = .next ((s.renew p sl).replied p .paymentResult tag .late []))
          ∧ (f.result = 0 → e.late = false → exec (.paymentResult p tag f) s
            = .next ((((s.putHire sl { s.hire sl with
                payments := (s.hire sl).payments.set (f.entry.toNat - 1) { e with late := true } }).lateApproval sl f.hire.toNat
                  e.method e.amount e.tip f.reference).renew p sl).replied p .paymentResult tag .late [])))
        ∧ ((s.hire sl).stage = .filing → e.port = p → f.result = 0 → exec (.paymentResult p tag f) s
            = .next (((s.lateApproval sl f.hire.toNat e.method e.amount e.tip f.reference).renew p sl).replied
                p .paymentResult tag .late []))
        ∧ ((s.hire sl).stage = .stopped ∨ (s.hire sl).stage = .filing → e.port ≠ p → f.result.toNat ≤ 1 →
            exec (.paymentResult p tag f) s = .next (s.replied p .paymentResult tag .notClaimant [1, 3])))
      ∧ (∀ m, slotOf f.slot = some sl →
          ((s.hire sl).number ≠ some f.hire.toNat ∨ (s.hire sl).stage = .free ∨ (s.hire sl).stage = .booked) →
          methodOf f.method = some m →
          (f.result = 0 → exec (.paymentResult p tag f) s
            = .next ((s.lateApproval sl f.hire.toNat m f.amount.toNat f.tip.toNat f.reference).replied p .paymentResult tag .late []))
          ∧ (f.result = 1 → exec (.paymentResult p tag f) s = .next (s.replied p .paymentResult tag .late []))))
  ∧
  (∀ (s : State) (sl : SlotId) (n : Nat) (m : PayMethod) (amount tip : Nat) (ref : BitVec 96),
      s.journal.steady ∨ (s.journal.queue = [] ∧ s.journal.state ≠ .normal) →
      ∃ t, t = s.lateApproval sl n m amount tip ref ∧ t.shift = s.shift.count .lateApprovals 1
        ∧ (t.port .fleet).holds .lateApproval = true ∧ t.hires = s.hires ∧ t.port .payment = s.port .payment
        ∧ (s.journal.state = .normal → s.reserve < s.journal.free → s.partClear ≠ .recovering →
            t.journal.queue = s.journal.queue ++ [⟨s.shift.number, s.clock, .lateApproval sl n m amount tip ref⟩])
        ∧ (s.journal.state ≠ .normal ∨ s.journal.free ≤ s.reserve ∨ s.partClear = .recovering → t.journal.queue = s.journal.queue))

/-- The fare tick at which a due count, a claim's expiry or a pickup deadline is reached: the entry becomes EXPIRED and the claimant is
told; the claim is released, both ports are told and a covered hire enters FILING; the booking's slot returns to FREE and both ports are
told (R8, R78, R85). The frame of the other slots is that of their own rules. That each of these rows is the whole tick at which the event
falls is the model's choice (log entry 4); that an entry made EXPIRED keeps its route and reference absent is its reading (log entry 52).
-/
def Obligations.TimersExpireAtTheFareTick : Prop :=
  ∀ (sl : SlotId) (l : Lines) (s : State), s.power = .running → s.fareNext = true → s.partClear = .idle → s.journal.steady →
    (∀ c entry e, (s.hire sl).stage = .stopped → (s.hire sl).claim = some c → s.nextCount < c.expiry → 1 ≤ entry →
      (s.hire sl).payments[entry - 1]? = some e → e.dueAt s.nextCount = true →
      ∃ t, exec (.paymentExpired sl entry l) s = .next t
        ∧ t.hire sl = { s.hire sl with payments := (s.hire sl).payments.map (fun e =>
            if e.dueAt s.nextCount then { e with state := .expired } else e) }
        ∧ (t.port c.port).holds .paymentExpired = true)
    ∧ (∀ c, (s.hire sl).stage = .stopped → (s.hire sl).claim = some c → c.expiry ≤ s.nextCount →
      ∃ t, exec (.claimExpired sl l) s = .next t
        ∧ t.hire sl = (if (s.hire sl).released.settled
            then { (s.hire sl).released with stage := .filing, outcome := some .paid } else (s.hire sl).released)
        ∧ (t.port c.port).holds .claimExpired = true ∧ (t.port .console).holds .claimExpired = true)
    ∧ (∀ b, (s.hire sl).stage = .booked → (s.hire sl).booking = some b → s.clock.reached b.deadline = true →
      ∃ t, exec (.bookingExpired sl l) s = .next t ∧ t.hire sl = Hire.cleared
        ∧ (t.port .console).holds .bookingExpired = true ∧ (t.port .fleet).holds .bookingExpired = true)

/-! ### The Tariff Store and the Time Base -/

/-- LOAD: a valid block writes its place, a failing one writes nothing and with stop-on-error stops the chain, a block of a stopped chain
is SKIPPED; the block with more-follows clear closes the chain with the tallies; STORE_BUSY and NOT_PERMITTED leave all as it was (R63 to
R66). The order STORE_BUSY before NOT_PERMITTED (log entry 28), the unbounded tallies and the bits of the flags byte (log entries 32 and
33) are the model's. -/
def Obligations.LoadTakesBlocksIntoItsChain : Prop :=
  ∀ (tag : Byte) (pl : List Byte) (s : State), Ready s .fleet → pl.length ≤ 240 →
    (s.tariffs.activation = none → s.partClear = .idle → s.tariffs.chain.kind ≠ some .compare →
      (∀ b st, s.tariffs.chain.stopped = false → readBlock pl = .ok b → applyBlock s.tariffs.staging b = .ok st →
        exec (.load .fleet tag pl) s = .next (if moreFollows pl then
          { s with tariffs := { s.tariffs with staging := st, chain := { s.tariffs.chain with
              kind := some .load, blocks := s.tariffs.chain.blocks + 1, ok := s.tariffs.chain.ok + 1 } } }.replied
                .fleet .load tag .ok []
          else { s with tariffs := { s.tariffs with staging := st, chain := Chain.cleared } }.replied .fleet .load tag .ok
            (be4 (s.tariffs.chain.ok + 1) ++ be4 s.tariffs.chain.failed ++ be4 s.tariffs.chain.skipped)))
      ∧ (∀ code, s.tariffs.chain.stopped = false → (readBlock pl).bind (applyBlock s.tariffs.staging) = .error code →
        exec (.load .fleet tag pl) s = .next (if moreFollows pl then
          { s with tariffs := { s.tariffs with chain := { s.tariffs.chain with
              kind := some .load, blocks := s.tariffs.chain.blocks + 1, failed := s.tariffs.chain.failed + 1,
              stopped := stopOnError pl } } }.replied .fleet .load tag code []
          else { s with tariffs := { s.tariffs with chain := Chain.cleared } }.replied .fleet .load tag code
            (be4 s.tariffs.chain.ok ++ be4 (s.tariffs.chain.failed + 1) ++ be4 s.tariffs.chain.skipped)))
      ∧ (s.tariffs.chain.stopped = true →
        exec (.load .fleet tag pl) s = .next (if moreFollows pl then
          { s with tariffs := { s.tariffs with chain := { s.tariffs.chain with
              kind := some .load, blocks := s.tariffs.chain.blocks + 1, skipped := s.tariffs.chain.skipped + 1 } } }.replied
                .fleet .load tag .skipped []
          else { s with tariffs := { s.tariffs with chain := Chain.cleared } }.replied .fleet .load tag .skipped
            (be4 s.tariffs.chain.ok ++ be4 s.tariffs.chain.failed ++ be4 (s.tariffs.chain.skipped + 1)))))
    ∧ (s.tariffs.activation.isSome ∨ s.partClear ≠ .idle →
        exec (.load .fleet tag pl) s = .next (s.replied .fleet .load tag .storeBusy []))
    ∧ (s.tariffs.activation = none → s.partClear = .idle → s.tariffs.chain.kind = some .compare →
        exec (.load .fleet tag pl) s = .next (s.replied .fleet .load tag .notPermitted []))

/-- COMPARE changes nothing but its chain: a valid block is OK and the first that differs is recorded, a failing one counts as differing
and with stop-on-error stops the chain, a block of a stopped chain is SKIPPED; the closing block reports; taken at any time but under an
open LOAD chain (R66, R67). That bits 2 to 7 of a block's flags byte are not read is the model's choice (log entry 33). A record block
differs when its place holds no record or another one, a withdrawal when its place is present, clear staging when any place is; the
closing result is the number of the first differing block and how many blocks followed it, or the tallies when none differed (R67). The
encodings of the result are the model's reading (log entries 11 and 32). -/
def Obligations.CompareChangesOnlyItsChain : Prop :=
  (∀ (tag : Byte) (pl : List Byte) (s : State), Ready s .fleet → pl.length ≤ 240 →
      (s.tariffs.chain.kind ≠ some .load →
        (∀ b c, s.tariffs.chain.stopped = false → readBlock pl = .ok b →
          c = { s.tariffs.chain with
            kind := some .compare, blocks := s.tariffs.chain.blocks + 1, ok := s.tariffs.chain.ok + 1
            firstDiff := if blockDiffers s.tariffs.staging b
              then some (s.tariffs.chain.firstDiff.getD (s.tariffs.chain.blocks + 1)) else s.tariffs.chain.firstDiff } →
          exec (.compare .fleet tag pl) s = .next (if moreFollows pl
            then { s with tariffs := { s.tariffs with chain := c } }.replied .fleet .compare tag .ok []
            else { s with tariffs := { s.tariffs with chain := Chain.cleared } }.replied .fleet .compare tag .ok c.compareResult))
        ∧ (∀ code c, s.tariffs.chain.stopped = false → readBlock pl = .error code →
          c = { s.tariffs.chain with
            kind := some .compare, blocks := s.tariffs.chain.blocks + 1, failed := s.tariffs.chain.failed + 1
            stopped := stopOnError pl
            firstDiff := some (s.tariffs.chain.firstDiff.getD (s.tariffs.chain.blocks + 1)) } →
          exec (.compare .fleet tag pl) s = .next (if moreFollows pl
            then { s with tariffs := { s.tariffs with chain := c } }.replied .fleet .compare tag code []
            else { s with tariffs := { s.tariffs with chain := Chain.cleared } }.replied .fleet .compare tag code c.compareResult))
        ∧ (∀ c, s.tariffs.chain.stopped = true →
          c = { s.tariffs.chain with
            kind := some .compare, blocks := s.tariffs.chain.blocks + 1, skipped := s.tariffs.chain.skipped + 1 } →
          exec (.compare .fleet tag pl) s = .next (if moreFollows pl
            then { s with tariffs := { s.tariffs with chain := c } }.replied .fleet .compare tag .skipped []
            else { s with tariffs := { s.tariffs with chain := Chain.cleared } }.replied .fleet .compare tag .skipped
              c.compareResult)))
      ∧ (s.tariffs.chain.kind = some .load →
          exec (.compare .fleet tag pl) s = .next (s.replied .fleet .compare tag .notPermitted [])))
  ∧
  (∀ (t : TariffSet) (c : Chain),
      (∀ id x, blockDiffers t (.tariff id x) = true ↔ t.tariff id = none ∨ ∃ y, t.tariff id = some y ∧ y ≠ x)
      ∧ (∀ i x, blockDiffers t (.calendar i x) = true ↔ t.entry i = none ∨ ∃ y, t.entry i = some y ∧ y ≠ x)
      ∧ (∀ id x, blockDiffers t (.extra id x) = true ↔ t.extra id = none ∨ ∃ y, t.extra id = some y ∧ y ≠ x)
      ∧ (∀ id, blockDiffers t (.withdrawTariff id) = true ↔ t.tariff id ≠ none)
      ∧ (∀ i, blockDiffers t (.withdrawCalendar i) = true ↔ t.entry i ≠ none)
      ∧ (∀ id, blockDiffers t (.withdrawExtra id) = true ↔ t.extra id ≠ none)
      ∧ (blockDiffers t .clearStaging = true ↔ (∃ x, some x ∈ t.tariffs) ∨ (∃ x, some x ∈ t.calendar) ∨ ∃ x, some x ∈ t.extras)
      ∧ (∀ n, c.firstDiff = some n →
          c.compareResult = 1 :: be4 n ++ 1 :: be4 (c.blocks - n) ++ [0, 0, 0, 0, 0] ++ [0, 0, 0, 0, 0] ++ [0, 0, 0, 0, 0])
      ∧ (c.firstDiff = none →
          c.compareResult = [0, 0, 0, 0, 0] ++ [0, 0, 0, 0, 0] ++ 1 :: be4 c.ok ++ 1 :: be4 c.failed ++ 1 :: be4 c.skipped))

/-- A valid block acts on the one place it names: a record replaces it, a withdrawal empties a present place and is NO_SUCH on an empty
one, clear staging empties every place (R64). The set has its places (R51). READ_TARIFF changes nothing: a place is answered with its
record or with the word that it is empty, the configuration record with its fields, the summary with its items; a place outside its range
is NO_SUCH, a set or item outside its encoding RANGE (R71, R185). The encodings of the reply items are the model's (log entries 11, 34, 35
and 44). -/
def Obligations.TariffSetsAreWrittenAndShown : Prop :=
  (∀ t : TariffSet, t.shaped →
      (∀ id x, 1 ≤ id → id ≤ 8 → ∃ u, applyBlock t (.tariff id x) = .ok u ∧ u.tariff id = some x
        ∧ (∀ n, n ≠ id → u.tariff n = t.tariff n) ∧ u.calendar = t.calendar ∧ u.extras = t.extras)
      ∧ (∀ i x, i ≤ 31 → ∃ u, applyBlock t (.calendar i x) = .ok u ∧ u.entry i = some x
        ∧ (∀ n, n ≠ i → u.entry n = t.entry n) ∧ u.tariffs = t.tariffs ∧ u.extras = t.extras)
      ∧ (∀ id x, 1 ≤ id → id ≤ 8 → ∃ u, applyBlock t (.extra id x) = .ok u ∧ u.extra id = some x
        ∧ (∀ n, n ≠ id → u.extra n = t.extra n) ∧ u.tariffs = t.tariffs ∧ u.calendar = t.calendar)
      ∧ (∀ id, (t.tariff id).isSome → ∃ u, applyBlock t (.withdrawTariff id) = .ok u ∧ u.tariff id = none
        ∧ (∀ n, n ≠ id → u.tariff n = t.tariff n) ∧ u.calendar = t.calendar ∧ u.extras = t.extras)
      ∧ (∀ i, (t.entry i).isSome → ∃ u, applyBlock t (.withdrawCalendar i) = .ok u ∧ u.entry i = none
        ∧ (∀ n, n ≠ i → u.entry n = t.entry n) ∧ u.tariffs = t.tariffs ∧ u.extras = t.extras)
      ∧ (∀ id, (t.extra id).isSome → ∃ u, applyBlock t (.withdrawExtra id) = .ok u ∧ u.extra id = none
        ∧ (∀ n, n ≠ id → u.extra n = t.extra n) ∧ u.tariffs = t.tariffs ∧ u.calendar = t.calendar)
      ∧ (∀ n, t.tariff n = none → applyBlock t (.withdrawTariff n) = .error .noSuch)
      ∧ (∀ n, t.entry n = none → applyBlock t (.withdrawCalendar n) = .error .noSuch)
      ∧ (∀ n, t.extra n = none → applyBlock t (.withdrawExtra n) = .error .noSuch)
      ∧ applyBlock t .clearStaging = .ok TariffSet.blank)
  ∧
  ((∀ (tag set item place : Byte) (s : State), Ready s .fleet → 1 < set.toNat →
      exec (.readTariff .fleet tag set item place) s = .next (s.replied .fleet .readTariff tag .range []))
    ∧ ∀ (tag set place : Byte) (t : TariffSet) (s : State), Ready s .fleet →
      (set = 0 ∧ t = s.tariffs.active ∨ set = 1 ∧ t = s.tariffs.staging) →
      (1 ≤ place.toNat → place.toNat ≤ 8 →
        exec (.readTariff .fleet tag set 0 place) s = .next (s.replied .fleet .readTariff tag .ok
          (match t.tariff place.toNat with
            | some x => 1 :: Tariff.bytes place.toNat x
            | none => 0 :: List.replicate 14 0))
        ∧ exec (.readTariff .fleet tag set 2 place) s = .next (s.replied .fleet .readTariff tag .ok
          (match t.extra place.toNat with
            | some x => 1 :: ExtraEntry.bytes place.toNat x
            | none => 0 :: List.replicate 7 0)))
      ∧ (place.toNat ≤ 31 → exec (.readTariff .fleet tag set 1 place) s = .next (s.replied .fleet .readTariff tag .ok
          (match t.entry place.toNat with
            | some x => 1 :: CalendarEntry.bytes place.toNat x
            | none => 0 :: List.replicate 5 0)))
      ∧ exec (.readTariff .fleet tag set 3 place) s = .next (s.replied .fleet .readTariff tag .ok s.tariffs.config.bytes)
      ∧ exec (.readTariff .fleet tag set 4 place) s = .next (s.replied .fleet .readTariff tag .ok (s.tariffs.summary t))
      ∧ (place.toNat = 0 ∨ 8 < place.toNat →
        exec (.readTariff .fleet tag set 0 place) s = .next (s.replied .fleet .readTariff tag .noSuch [])
        ∧ exec (.readTariff .fleet tag set 2 place) s = .next (s.replied .fleet .readTariff tag .noSuch []))
      ∧ (31 < place.toNat → exec (.readTariff .fleet tag set 1 place) s = .next (s.replied .fleet .readTariff tag .noSuch []))
      ∧ (∀ item : Byte, 4 < item.toNat → exec (.readTariff .fleet tag set item place) s
        = .next (s.replied .fleet .readTariff tag .range [])))

/-- A block frame laid out from a record reads back as that record: every tariff whose fields lie in range, every calendar entry and every
extra, at every id and index, with every flags byte (R53, R55, R58, Chain blocks). That bits 2 to 7 of that byte are not read is the
model's choice (log entry 33). -/
def Obligations.BlocksReadBackAsTheyAreLaidOut : Prop :=
  ∀ flags : Byte,
    (∀ id t, 1 ≤ id → id ≤ 8 → t.inRange = true → readBlock (1 :: flags :: Tariff.bytes id t) = .ok (.tariff id t))
    ∧ (∀ i (e : CalendarEntry), i ≤ 31 → e.weekdays ≠ 0 → e.start ≤ 1439 → 1 ≤ e.tariff → e.tariff ≤ 8 →
        readBlock (2 :: flags :: CalendarEntry.bytes i e) = .ok (.calendar i e))
    ∧ (∀ id (e : ExtraEntry), 1 ≤ id → id ≤ 8 → e.amount ≤ 50000 → 1 ≤ e.maxCount → e.maxCount ≤ 9 →
        readBlock (3 :: flags :: ExtraEntry.bytes id e) = .ok (.extra id e))
    ∧ (∀ id, 1 ≤ id → id ≤ 8 → readBlock [4, flags, BitVec.ofNat 8 id] = .ok (.withdrawTariff id)
        ∧ readBlock [6, flags, BitVec.ofNat 8 id] = .ok (.withdrawExtra id))
    ∧ (∀ i, i ≤ 31 → readBlock [5, flags, BitVec.ofNat 8 i] = .ok (.withdrawCalendar i))
    ∧ readBlock [7, flags] = .ok .clearStaging

/-- ACTIVATE, its checks passing, is ACCEPTED and takes the staging set as it stands; at its completion that set is active and in the
store, the outcome is DONE, the Fleet port is told, and an ACTIVATION record of the changed ids is handed over when a slot is free; at a
failure the active set stands and the outcome is FAILED (R68, R69). -/
def Obligations.ActivationBringsTheStagingSetIntoUse : Prop :=
  ∀ (tag : Byte) (s : State),
    (Ready s .fleet → s.tariffs.activation = none → s.tariffs.configWrite = none → s.partClear = .idle → s.shift.state = .closed →
      s.tariffs.chain.kind = none → exec (.activate .fleet tag) s
        = .next ({ s with tariffs := { s.tariffs with activation := some s.tariffs.staging } }.replied .fleet .activate tag
            .accepted []))
    ∧ (∀ new, s.power = .running → s.tariffs.activation = some new →
      (∃ t, exec .activationDone s = .next t ∧ t.tariffs.active = new ∧ t.tariffs.activation = none
        ∧ t.tariffs.activationOutcome = .done ∧ t.tariffs.tariffSection.current = some new
        ∧ t.tariffs.staging = s.tariffs.staging ∧ t.tariffs.config = s.tariffs.config ∧ t.tariffs.chain = s.tariffs.chain
        ∧ (s.journal.steady → (t.port .fleet).holds .activationDone = true
          ∧ t.journal.queue = s.journal.queue ++ (if 1 ≤ s.journal.free ∧ s.partClear ≠ .recovering
              then [⟨s.shift.number, s.clock, .activation ((List.range 8).filterMap (fun i =>
                if s.tariffs.active.tariff (i + 1) = new.tariff (i + 1) then none else some (i + 1)))⟩] else [])))
      ∧ exec .activationFailed s
        = .next ({ s with tariffs := { s.tariffs with activation := none, activationOutcome := .failed } }.notify
            .fleet .activationDone))

/-- SET_CONFIG, its checks passing, writes the present fields and no other, begins a configuration write, drops the odometer remainder at
a change of k, works the low mark out under a changed level, and gives the lamps in the target a changed full level as their goal; it is
refused STORE_BUSY while store work is in flight, RANGE for a field outside its range, and a change of k SHIFT_STATE with the shift not
CLOSED and SEALED without the seal; a refusal changes nothing (R49, R60, R61). The seal line is held as it reads with the request (the
model's choice, log entry 5). A configuration write that completes makes the spare copy current; a failing one is made again twice and
given up at the third failure, with the store section left behind (R62). -/
def Obligations.ConfigurationIsSetAndWritten : Prop :=
  (∀ (tag : Byte) (f : ConfigFields) (sealed : Bool) (s u : State), Ready s .fleet →
      u = { s with pins := { s.pins with sealed := sealed } } →
      (s.tariffs.activation.isSome ∨ s.tariffs.configWrite.isSome ∨ s.partClear ≠ .idle →
        exec (.setConfig .fleet tag ⟨f, sealed⟩) s = .next (u.replied .fleet .setConfig tag .storeBusy []))
      ∧ (s.tariffs.activation = none → s.tariffs.configWrite = none → s.partClear = .idle →
        (fieldsInRange f = false →
          exec (.setConfig .fleet tag ⟨f, sealed⟩) s = .next (u.replied .fleet .setConfig tag .range []))
        ∧ (fieldsInRange f = true →
          ((hasField f 1 = true → f.k.toNat ≠ s.tariffs.config.k → s.shift.state = .closed ∧ sealed = true) →
            ∃ t, exec (.setConfig .fleet tag ⟨f, sealed⟩) s = .next t
              ∧ t.tariffs.config.k = (if hasField f 1 then f.k.toNat else s.tariffs.config.k)
              ∧ t.tariffs.config.claimTimeout = (if hasField f 2 then f.claimTimeout.toNat else s.tariffs.config.claimTimeout)
              ∧ t.tariffs.config.paymentTimeout = (if hasField f 3 then f.paymentTimeout.toNat else s.tariffs.config.paymentTimeout)
              ∧ t.tariffs.config.ceiling = (if hasField f 4 then f.ceiling.toNat else s.tariffs.config.ceiling)
              ∧ t.tariffs.config.pooling = (if hasField f 5 then f.pooling == 1 else s.tariffs.config.pooling)
              ∧ t.tariffs.config.lowWater = (if hasField f 6 then f.lowWater.toNat else s.tariffs.config.lowWater)
              ∧ t.tariffs.config.depth = (if hasField f 7 then f.depth.toNat else s.tariffs.config.depth)
              ∧ t.tariffs.config.nightLevel = (if hasField f 8 then f.nightLevel.toNat else s.tariffs.config.nightLevel)
              ∧ t.tariffs.configWrite = some 0
              ∧ t.odoRem = (if hasField f 1 = true ∧ f.k.toNat ≠ s.tariffs.config.k then 0 else s.odoRem)
              ∧ t.journal.low = (if hasField f 6 = true ∧ f.lowWater.toNat ≠ s.tariffs.config.lowWater
                  then decide (s.journal.free < f.lowWater.toNat) else s.journal.low)
              ∧ (t.journal.low = true → s.journal.low = false →
                  (t.port .console).holds .journalLow = true ∧ (t.port .fleet).holds .journalLow = true)
              ∧ (t.fullLevel ≠ s.fullLevel → s.sign.test = none →
                  t.sign.lamps.vacant.goal = (if s.sign.target.group = some .vacant then t.fullLevel else 0)
                  ∧ t.sign.lamps.hired.goal = (if s.sign.target.group = some .hired then t.fullLevel else 0)
                  ∧ t.sign.lamps.offDuty.goal = (if s.sign.target.group = some .offDuty then t.fullLevel else 0)
                  ∧ t.sign.lamps.share.goal = (if s.sign.target.share then t.fullLevel else 0))
              ∧ (t.fullLevel = s.fullLevel → t.sign = s.sign)
              ∧ (t.port .fleet).reply = replyFrames Kind.setConfig.byte tag false [[Code.ok.byte]]
              ∧ t = { s with
                  pins := { s.pins with sealed := sealed }
                  tariffs := { s.tariffs with config := t.tariffs.config, configWrite := some 0 }
                  odoRem := t.odoRem
                  journal := { s.journal with low := t.journal.low }
                  sign := t.sign
                  ports := t.ports })
          ∧ (hasField f 1 = true → f.k.toNat ≠ s.tariffs.config.k → s.shift.state ≠ .closed →
            exec (.setConfig .fleet tag ⟨f, sealed⟩) s = .next (u.replied .fleet .setConfig tag .shiftState []))
          ∧ (hasField f 1 = true → f.k.toNat ≠ s.tariffs.config.k → s.shift.state = .closed → sealed = false →
            exec (.setConfig .fleet tag ⟨f, sealed⟩) s = .next (u.replied .fleet .setConfig tag .sealed [])))))
  ∧
  (∀ (n : Nat) (s : State), s.power = .running → s.tariffs.configWrite = some n →
      (∃ t, exec .configWriteComplete s = .next t ∧ t.tariffs.configSection.current = some s.tariffs.config
        ∧ t.tariffs.configWrite = none ∧ t.tariffs.configBehind = false ∧ t.tariffs.config = s.tariffs.config
        ∧ t = { s with tariffs := { s.tariffs with
            configSection := t.tariffs.configSection, configWrite := none, configBehind := false } })
      ∧ (n < 2 → exec .configWriteFail s = .next { s with tariffs := { s.tariffs with configWrite := some (n + 1) } })
      ∧ (2 ≤ n → exec .configWriteFail s
        = .next { s with tariffs := { s.tariffs with configWrite := none, configBehind := true } }))

/-- SET_CLOCK with a valid time takes it, with the shift CLOSED or within 120 seconds, and sets the status; an invalid time is RANGE, one
too far SHIFT_STATE; an empty payload reads; every reply carries the clock and its status as they stand after (R187). Each new second
moves the clock on, whatever the supply does: from a valid time that is not the last to the valid time one second later, and from the last
to Saturday 1 January 2000, 00:00:00 with status UNSET (R187, R190). The calendar's choice under AUTO: among today's entries begun by this
minute the one with the greatest start minute, the lowest index winning a tie; failing that the same search over each day before, seven at
most; with an empty calendar tariff 1 (R56). R187 does not say whether the 120 seconds count across the wrap from 2099 to 2000; that they
do not, so that such a time is too far from the clock under a shift, is the model's choice (log entry 50). -/
def Obligations.TheClockIsSetMovesAndChoosesTariffs : Prop :=
  (∀ (tag : Byte) (f : ClockFields) (s : State), Ready s .fleet →
      ((clockTimeOf f).valid = true → (s.shift.state = .closed ∨ (clockTimeOf f).near s.clock = true) →
        exec (.setClock .fleet tag f) s
          = .next ({ s with clock := clockTimeOf f, clockStatus := .set }.replied .fleet .setClock tag .ok
              ((clockTimeOf f).bytes ++ [0])))
      ∧ ((clockTimeOf f).valid = false → exec (.setClock .fleet tag f) s
          = .next (s.replied .fleet .setClock tag .range (s.clock.bytes ++ [s.clockStatus.byte])))
      ∧ ((clockTimeOf f).valid = true → s.shift.state ≠ .closed → (clockTimeOf f).near s.clock = false →
        exec (.setClock .fleet tag f) s
          = .next (s.replied .fleet .setClock tag .shiftState (s.clock.bytes ++ [s.clockStatus.byte])))
      ∧ exec (.setClockRead .fleet tag) s
          = .next (s.replied .fleet .setClock tag .ok (s.clock.bytes ++ [s.clockStatus.byte])))
  ∧
  (∀ s : State, s.clock.valid = true →
      ∃ t, exec .rtcSecond s = .next t ∧ t = { s with clock := t.clock, clockStatus := t.clockStatus } ∧ t.clock.valid = true
        ∧ (s.clock.isLast = false → t.clock.toSeconds = s.clock.toSeconds + 1 ∧ t.clockStatus = s.clockStatus)
        ∧ (s.clock.isLast = true → t.clock = ⟨2000, 1, 1, 6, 0, 0, 0⟩ ∧ t.clockStatus = .unset))
  ∧
  ((∀ (cal : List (Option CalendarEntry)) (test : CalendarEntry → Bool),
      (∀ e, bestEntry cal test = some e → ∃ i : Nat, cal[i]? = some (some e) ∧ test e = true
        ∧ ∀ (j : Nat) (x : CalendarEntry), cal[j]? = some (some x) → test x = true → x.start < e.start ∨ x.start = e.start ∧ i ≤ j)
      ∧ (bestEntry cal test = none → ∀ (j : Nat) (x : CalendarEntry), cal[j]? = some (some x) → test x = false))
    ∧ (∀ (cal : List (Option CalendarEntry)) (now : ClockTime),
      (∀ e, bestEntry cal (fun x => x.on now.weekday && decide (x.start ≤ now.minuteOfDay)) = some e →
        calendarChoice cal now = e.tariff)
      ∧ (bestEntry cal (fun x => x.on now.weekday && decide (x.start ≤ now.minuteOfDay)) = none →
        (∀ (back : Nat) (e : CalendarEntry), back < 7 → (∀ n, n < back → bestEntry cal (fun x => x.on (weekdayBefore now.weekday (n + 1))) = none) →
          bestEntry cal (fun x => x.on (weekdayBefore now.weekday (back + 1))) = some e → calendarChoice cal now = e.tariff)
        ∧ ((∀ j : Nat, cal[j]? = none ∨ cal[j]? = some none) → calendarChoice cal now = 1))))

/-! ### The Fare Engine -/

/-- The metre method: each pulse raises a remainder by 1000 and draws from it as many metres as it holds k, so that it ends below k; the
bounds for the three ranges of k; after p pulses from 0 the count is the whole part of p × 1000 / k and the remainder what is left; the
printed tables; and its use for the hire, the vacant and the odometer remainder (R29). -/
def Obligations.MetresAreDrawnFromPulses : Prop :=
  (∀ k rem, 0 < k → metreRemainder k rem < k ∧ metresDrawn k rem * k + metreRemainder k rem = rem + 1000)
  ∧ (∀ k rem, rem < k → (1000 ≤ k → metresDrawn k rem ≤ 1)
      ∧ (500 ≤ k → k ≤ 999 → 1 ≤ metresDrawn k rem ∧ metresDrawn k rem ≤ 2)
      ∧ (400 ≤ k → k ≤ 499 → 2 ≤ metresDrawn k rem ∧ metresDrawn k rem ≤ 3))
  ∧ (∀ k p, 0 < k → metreRun k p = (p * 1000 / k, p * 1000 % k))
  ∧ (List.range 6).map (metreRun 1250) = [(0, 0), (0, 1000), (1, 750), (2, 500), (3, 250), (4, 0)]
  ∧ (List.range 6).map (metreRun 400) = [(0, 0), (2, 200), (5, 0), (7, 200), (10, 0), (12, 200)]
  ∧ (∀ (k : Nat) (h : Hire), (h.travel k).metreRem = metreRemainder k h.metreRem
      ∧ (h.travel k).metres = min (h.metres + metresDrawn k h.metreRem) 4294967295)
  ∧ (∀ s : State, s.vacantPulse.vacantRem = metreRemainder s.tariffs.config.k s.vacantRem
      ∧ s.vacantPulse.shift = s.shift.count .vacantMetres (metresDrawn s.tariffs.config.k s.vacantRem)
      ∧ s.odometerPulse.odoRem = metreRemainder s.tariffs.config.k s.odoRem
      ∧ s.odometerPulse.shift.totals.totalMetres
          = (s.shift.totals.totalMetres + metresDrawn s.tariffs.config.k s.odoRem) % 1000000000)

/-- The share percent is fixed at the event by how many hires run; a step adds the whole part of (A × s + residue) / 100 to the metered
amount and keeps the rest as residue; the charge is cut at the cap of 999,999 on the total due and nothing is charged once capped; the
steps field stops at 65535; an ENGAGED hire becomes METERING and no other stage moves (R40, R41, R43, R44). -/
def Obligations.StepChargeFollowsShareResidueAndCap : Prop :=
  (∀ (t : Tariff), sharePercent t 1 = 100 ∧ sharePercent t 2 = t.s2 ∧ sharePercent t 3 = t.s3)
  ∧ ∀ (h : Hire) (amount share : Nat),
    ∃ v h', v = amount * share + h.residue ∧ h' = h.charge amount share
      ∧ h'.residue = v % 100
      ∧ (h.capped = false → h.metered + h.extrasAmount + v / 100 ≤ 999999 → h'.metered = h.metered + v / 100 ∧ h'.capped = false)
      ∧ (h.capped = false → 999999 < h.metered + h.extrasAmount + v / 100 →
          h'.metered = h.metered + (999999 - h.metered - h.extrasAmount) ∧ h'.capped = true)
      ∧ (h.capped = true → h'.metered = h.metered ∧ h'.capped = true)
      ∧ h'.steps = (if h.steps < 65535 then h.steps + 1 else h.steps)
      ∧ h'.stage = (if h.stage = .engaged then .metering else h.stage)
      ∧ h' = { h with
          stage := h'.stage, metered := h'.metered, residue := h'.residue, steps := h'.steps, capped := h'.capped }

/-- The law of the residue: for a hire that is not capped, one hundred times its metered amount plus its residue is what it was at the
start plus the sum of A × s over the steps charged, whatever the steps field shows; a change of band, a stop and a suspension leave the
metered amount and the residue as they stand (R42). -/
def Obligations.ResidueCarriesEveryFraction : Prop :=
  (∀ (h : Hire) (steps : List (Nat × Nat)), (chargeAll h steps).capped = false →
    100 * (chargeAll h steps).metered + (chargeAll h steps).residue
      = 100 * h.metered + h.residue + (steps.map (fun a => a.1 * a.2)).sum)
  ∧ (∀ (id : Nat) (t : Tariff) (n : Nat) (now : ClockTime) (b : Option Booking),
      (startedHire id t n now b).metered = t.flagFall ∧ (startedHire id t n now b).flagFall = t.flagFall
        ∧ (startedHire id t n now b).residue = 0)
  ∧ ∀ (h : Hire) (b : Nat) (now : ClockTime),
      ((h.enterBand b).metered = h.metered ∧ (h.enterBand b).residue = h.residue)
      ∧ ((h.stoppedAt now).metered = h.metered ∧ (h.stoppedAt now).residue = h.residue)
      ∧ (h.suspended.metered = h.metered ∧ h.suspended.residue = h.residue)
      ∧ (h.restored.metered = h.metered ∧ h.restored.residue = h.residue)

/-- A wheel pulse on a hire: a SUSPENDED or FIXED hire, or one whose tariff a start-up lost, counts distance alone; a METERED running hire
counts distance, and then either moves to the highest band whose start distance its pulses have reached, with its accumulators and initial
flags cleared and nothing charged, or goes on to its distance accumulator; any other hire is left as it is (R32, R33, R45, R46, R52). When
a pulse on a running hire has ended its distance accumulator is below its distance threshold, however short the step (R34). A wheel pulse
reaches every slot, at the share count of the event; adds to the vacant distance when the shift is OPEN or CLOSING and no slot runs or is
SUSPENDED; adds to the odometer always; a change of stage from ENGAGED to METERING reaches ports and sign; nothing else moves (R31, R40,
R44, R47, R48). That a pulse's metres join total metres at once is the model's choice (log entry 31); that a hire changes to a lower band
where a start-up has raised k is its reading (log entry 43) against the words of R32 that the band index can only rise. -/
def Obligations.PulsesAdvanceTheCab : Prop :=
  (∀ (k n : Nat) (active : TariffSet) (h : Hire),
      ((h.stage = .suspended ∨ h.running = true ∧ (h.tariffKind = .fixed ∨ h.unmetered = true ∨ active.tariff h.tariffId = none)) →
        h.pulse k n active = h.travel k)
      ∧ (h.running = false → h.stage ≠ .suspended → h.pulse k n active = h)
      ∧ (∀ t best, h.running = true → h.tariffKind = .metered → h.unmetered = false → active.tariff h.tariffId = some t →
          (∃ x rest, t.bands = x :: rest ∧ x.start = 0) →
          (∃ x, t.bands[best - 1]? = some x ∧ 1 ≤ best ∧ x.start * k ≤ (h.travel k).pulses * 1000) →
          (∀ (j : Nat) (y : Band), best ≤ j → t.bands[j]? = some y → (h.travel k).pulses * 1000 < y.start * k) →
          (best ≠ h.band → h.pulse k n active = { h.travel k with
            band := best, distAcc := 0, timeAcc := 0, distInitial := false, timeInitial := false })
          ∧ (∀ x, best = h.band → t.bands[best - 1]? = some x → x.mode = .time → h.pulse k n active = h.travel k)
          ∧ (∀ x, best = h.band → t.bands[best - 1]? = some x → x.mode ≠ .time →
            h.distAcc + 1000 < (if h.distInitial then t.d0 else x.step) * k →
            h.pulse k n active = { h.travel k with distAcc := h.distAcc + 1000 })
          ∧ (∀ x, best = h.band → t.bands[best - 1]? = some x → x.mode ≠ .time → 1000 ≤ x.step * k →
            h.distAcc < (if h.distInitial then t.d0 else x.step) * k →
            (if h.distInitial then t.d0 else x.step) * k ≤ h.distAcc + 1000 →
            h.pulse k n active = Hire.charge { h.travel k with
              distAcc := h.distAcc + 1000 - (if h.distInitial then t.d0 else x.step) * k
              timeAcc := if x.mode = .combined then 0 else h.timeAcc
              distInitial := false
              timeInitial := if x.mode = .combined then false else h.timeInitial } x.amount (sharePercent t n))))
  ∧
  (∀ (k n : Nat) (t : Tariff) (x : Band) (h : Hire), 0 < k → 1 ≤ x.step → (h.distInitial = true → 1 ≤ t.d0) → x.mode ≠ .time →
      (h.advance k n t x).distAcc < distThreshold k t x (h.advance k n t x))
  ∧
  (∀ s : State, s.power = .running →
      ∃ t, exec .wheelPulse s = .next t
        ∧ (∀ sl, t.hire sl = (s.hire sl).pulse s.tariffs.config.k s.hires.running s.tariffs.active)
        ∧ t.odoRem = metreRemainder s.tariffs.config.k s.odoRem
        ∧ t.shift.totals = { s.shift.totals with
            totalMetres := (s.shift.totals.totalMetres + metresDrawn s.tariffs.config.k s.odoRem) % 1000000000 }
        ∧ (s.shift.state ≠ .closed → (∀ sl, (s.hire sl).running = false ∧ (s.hire sl).stage ≠ .suspended) →
            t.vacantRem = metreRemainder s.tariffs.config.k s.vacantRem
            ∧ t.shift.counters = (s.shift.count .vacantMetres (metresDrawn s.tariffs.config.k s.vacantRem)).counters)
        ∧ (s.shift.state = .closed ∨ (∃ sl, (s.hire sl).running = true ∨ (s.hire sl).stage = .suspended) →
            t.vacantRem = s.vacantRem ∧ t.shift.counters = s.shift.counters)
        ∧ (∀ p sl, (s.hire sl).stage = .engaged → (t.hire sl).stage = .metering → (s.port p).stageMask.getLsbD 3 = true →
            (t.port p).holds (stageKind sl) = true)
        ∧ t = { s with
            hires := t.hires, ports := t.ports, sign := t.sign, shift := t.shift, vacantRem := t.vacantRem, odoRem := t.odoRem })

/-- A tick adds one to the 48-bit count and reads the lines; one that is no fare tick leaves hires, shift, journal, tariffs and clock as
they were, and reads the alarm line into the runs (R166, R186). A fare tick on a running hire: nothing in DISTANCE mode, for a FIXED hire
or for one whose tariff was lost; otherwise its time accumulator rises by one, and at its threshold it returns to 0, the mode's rule
clears what it clears and one step is charged at the share of the event; a SUSPENDED hire is left as it is (R35 to R38, R45, R46, R52).
The sign and the lines at a tick: a ramp step at an even count and at no other, while no test runs; at a fare tick each front lamp is
checked against its sense line after the step; the ambient value stands while its disagreeing readings are fewer than a hundred (R136,
R137, R140). Push-to-talk turns at the second reading in turn that says so, and the wanted paths are derived; a call press taken in
PRIVATE tells the console and starts an absent chime (R156, R159). No Part clear is in flight. That the count wraps at 2^48 is the model's
reading (log entry 25); that the row of a fare tick is the whole tick (log entry 4) and that a tick row carries the levels of the lines
(log entry 5) are its choices. -/
def Obligations.TicksAndFareTicks : Prop :=
  (∀ (l : Lines) (s : State), s.power = .running →
      ∃ t, exec (.tick l) s = .next t ∧ t.timeBase = (s.timeBase + 1) % 2 ^ 48 ∧ t.pins = l ∧ t.clock = s.clock
        ∧ t.clockStatus = s.clockStatus ∧ t.power = .running ∧ t.nextHire = s.nextHire ∧ t.vacantRem = s.vacantRem
        ∧ t.odoRem = s.odoRem ∧ t.tariffs.active = s.tariffs.active ∧ t.tariffs.config = s.tariffs.config
        ∧ (t.alarm.armed = ((s.alarm.armed && !(l.alarm && s.alarm.pressRun == 49)) || (!l.alarm && decide (1 ≤ s.alarm.releaseRun))))
        ∧ t.alarm.pressRun = (if l.alarm then min (s.alarm.pressRun + 1) 50 else 0)
        ∧ t.alarm.releaseRun = (if l.alarm then 0 else min (s.alarm.releaseRun + 1) 2)
        ∧ (¬(s.timeBase + 1) % 2 ^ 48 % 10 = 0 → s.partClear = .idle →
            t.hires = s.hires ∧ t.shift = s.shift ∧ t.journal = s.journal ∧ t.tariffs = s.tariffs ∧ t.indicators = s.indicators
            ∧ t.partClear = .idle ∧ t.draws = s.draws))
  ∧
  (∀ (sl : SlotId) (l : Lines) (s : State), s.power = .running → s.fareNext = true → s.partClear = .idle → s.journal.steady →
      (s.hire sl).claim = none →
      ∃ t, exec (.fareTick l) s = .next t ∧ t.timeBase = s.nextCount
        ∧ ((s.hire sl).stage = .suspended → t.hire sl = s.hire sl)
        ∧ ((s.hire sl).running = true →
            ((s.hire sl).tariffKind = .fixed ∨ (s.hire sl).unmetered = true ∨ s.tariffs.active.tariff (s.hire sl).tariffId = none →
                t.hire sl = s.hire sl)
            ∧ (∀ tf x, (s.hire sl).tariffKind = .metered → (s.hire sl).unmetered = false → s.tariffs.active.tariff (s.hire sl).tariffId = some tf →
                1 ≤ (s.hire sl).band → tf.bands[(s.hire sl).band - 1]? = some x →
                (x.mode = .distance → t.hire sl = s.hire sl)
                ∧ (x.mode ≠ .distance → (s.hire sl).timeAcc + 1 < (if (s.hire sl).timeInitial then tf.t0 else x.time) →
                    t.hire sl = { s.hire sl with timeAcc := (s.hire sl).timeAcc + 1 })
                ∧ (x.mode ≠ .distance → (if (s.hire sl).timeInitial then tf.t0 else x.time) ≤ (s.hire sl).timeAcc + 1 →
                    t.hire sl = Hire.charge { s.hire sl with
                      timeAcc := 0
                      distAcc := if x.mode = .combined then 0 else (s.hire sl).distAcc
                      timeInitial := false
                      distInitial := if x.mode = .combined then false else (s.hire sl).distInitial }
                        x.amount (sharePercent tf s.hires.running)))))
  ∧
  (∀ (l : Lines) (s : State), s.power = .running → s.partClear = .idle →
      ∃ t, exec (.tick l) s = .next t
        ∧ (s.sign.test = none →
          (s.nextCount % 2 = 0 → ∀ i, i ≠ .alarm → (t.sign.lamps.get i).level = (s.sign.lamps.rampStep.get i).level)
          ∧ (s.nextCount % 2 ≠ 0 → ∀ i, i ≠ .alarm → (t.sign.lamps.get i).level = (s.sign.lamps.get i).level)
          ∧ (s.fareNext = true →
            t.sign.lamps.vacant = { s.sign.lamps.rampStep.vacant.check l.sense.vacant with goal := t.sign.lamps.vacant.goal }
            ∧ t.sign.lamps.hired = { s.sign.lamps.rampStep.hired.check l.sense.hired with goal := t.sign.lamps.hired.goal }
            ∧ t.sign.lamps.offDuty = { s.sign.lamps.rampStep.offDuty.check l.sense.offDuty with goal := t.sign.lamps.offDuty.goal }
            ∧ t.sign.lamps.share = { s.sign.lamps.rampStep.share.check l.sense.share with goal := t.sign.lamps.share.goal }))
        ∧ (∀ x, s.sign.test = some x → 1 < x.left → ∀ i, i ≠ .alarm → (t.sign.lamps.get i).level = (s.sign.lamps.get i).level)
        ∧ (s.fareNext = false → ∀ i, (t.sign.lamps.get i).misses = (s.sign.lamps.get i).misses
            ∧ (t.sign.lamps.get i).fault = (s.sign.lamps.get i).fault)
        ∧ (l.night = s.sign.night → t.sign.night = s.sign.night ∧ t.sign.disagree = 0)
        ∧ (l.night ≠ s.sign.night → s.sign.disagree < 99 → t.sign.night = s.sign.night ∧ t.sign.disagree = s.sign.disagree + 1)
        ∧ t.intercom.talkOlder = s.intercom.talkNewer ∧ t.intercom.talkNewer = l.talk
        ∧ t.intercom.callOlder = s.intercom.callNewer ∧ t.intercom.callNewer = l.call
        ∧ t.intercom.held = (if l.talk ≠ s.intercom.held ∧ s.intercom.talkNewer = l.talk then l.talk else s.intercom.held)
        ∧ t.intercom.mode = s.intercom.mode
        ∧ (s.intercom.mode = .ptt → t.intercom.held ≠ s.intercom.held →
            (t.intercom.held = true → t.intercom.fr.state ≠ .closed ∧ t.intercom.rf.state = .closed)
            ∧ (t.intercom.held = false → t.intercom.rf.state ≠ .closed ∧ t.intercom.fr.state = .closed))
        ∧ (t.intercom.held = s.intercom.held → ¬(s.intercom.mode = .privateTalk ∧ s.intercom.callPressed l.call = true) →
            t.intercom.fr = s.intercom.fr ∧ t.intercom.rf = s.intercom.rf)
        ∧ (l.call = true → s.intercom.callNewer = true → s.intercom.callOlder = false → s.intercom.mode = .privateTalk →
            (t.port .console).holds .call = true
            ∧ (s.intercom.chime = none → t.intercom.chime = some ⟨3, 8000, 0⟩
                ∧ (t.intercom.held = false → t.intercom.rf.state ≠ .closed))
            ∧ (∀ c, s.intercom.chime = some c → t.intercom.chime = some c))
        ∧ (s.intercom.mode ≠ .privateTalk ∨ l.call = false ∨ s.intercom.callNewer = false ∨ s.intercom.callOlder = true →
            t.intercom.chime = s.intercom.chime ∧ (s.fareNext = false → t.port .console = s.port .console)))

/-! ### The Journal -/

/-- A verify that passes: the slot holds the record and every other slot reads as before, the next sequence number is one beyond it, the
writer moves on, the record leaves the queue and its completion is reported; the next record then begins (R117, R118, R120, R121). A
verify that fails: the page joins the retired list, or with eight there already writing is closed; the other slots read as before; the
numbering stands; the writer goes to slot 0 of the next page not retired; the state follows the rule on FAULT with JOURNAL_FAULT at an
entry from NORMAL; and the record is filed again where the new slot is free (R117, R122, R123). The writer's next page: slot 0 of the
first page after the one it leaves, going round the circle, that is not retired (R118, R122). -/
def Obligations.VerifiesPassAndFail : Prop :=
  (∀ (f : Filing) (r : JournalRecord) (rest : List JournalRecord) (s : State), s.power = .running → s.partClear = .idle →
      s.journal.inFlight = some f → s.journal.queue = r :: rest → f.seq < 4294967295 →
      ∃ t, exec .journalVerifyPass s = .next t
        ∧ t = ((({ s with journal := { s.journal with
              store := slotWrite s.journal.store f.place.index (.whole f.seq r)
              nextSeq := f.seq + 1
              writer := f.place.next s.journal.retired
              queue := rest
              inFlight := none } } : State).updateLow).complete r.body).fileOn
        ∧ slotRead t.journal.store f.place.index = some (.whole f.seq r)
        ∧ (∀ i, i ≠ f.place.index → slotRead t.journal.store i = slotRead s.journal.store i)
        ∧ t.journal.nextSeq = f.seq + 1 ∧ t.journal.acked = s.journal.acked ∧ t.journal.retired = s.journal.retired
        ∧ t.journal.writer = (if f.place.slot < 15 then ⟨f.place.page, f.place.slot + 1⟩
            else freshPage s.journal.retired f.place.page))
  ∧
  (∀ (f : Filing) (r : JournalRecord) (rest : List JournalRecord) (s : State), s.power = .running → s.partClear = .idle →
      s.journal.inFlight = some f → s.journal.queue = r :: rest →
      ∃ t, exec .journalVerifyFail s = .next t
        ∧ t.journal.nextSeq = s.journal.nextSeq ∧ t.journal.acked = s.journal.acked
        ∧ t.journal.retired = (if s.journal.retired.length < 8 then s.journal.retired ++ [f.place.page] else s.journal.retired)
        ∧ t.journal.writer = freshPage t.journal.retired f.place.page
        ∧ (∀ i, i ≠ f.place.index → slotRead t.journal.store i = slotRead s.journal.store i)
        ∧ (8 ≤ s.journal.retired.length → t.journal.state = .fault .retiredList)
        ∧ (s.journal.retired.length < 8 → t.journal.state
            = if s.journal.state = .normal ∧ (s.journal.retire f).free < s.reserve then .fault .reserve else s.journal.state)
        ∧ (s.journal.state = .normal → t.journal.state ≠ .normal →
            (t.port .console).holds .journalFault = true ∧ (t.port .fleet).holds .journalFault = true)
        ∧ (s.journal.retired.length < 8 → s.journal.state ≠ .fault .retiredList →
            (s.journal.retire f).slotFree (s.journal.retire f).writer = true →
            t.journal.queue = r :: rest ∧ t.journal.inFlight = some ⟨s.journal.nextSeq, t.journal.writer⟩
              ∧ t.hires = s.hires ∧ t.shift = s.shift))
  ∧
  (∀ (retired : List Nat) (page : Nat), retired.length ≤ 8 →
      ∃ d, d < 256 ∧ freshPage retired page = ⟨(page + 1 + d) % 256, 0⟩ ∧ (page + 1 + d) % 256 ∉ retired
        ∧ ∀ e, e < d → (page + 1 + e) % 256 ∈ retired)

/-- READ_JOURNAL gives the oldest unacknowledged records in order of number, up to the count, whole and in order: each frame says how many
it carries, at most four, and the next record would not have fitted in it; the last frame alone carries the status and FINAL; it changes
nothing; a count outside 1 to 64 is RANGE; no frame passes 240 bytes (R126, R177). The records have the lengths of the layout: HIRE 65 +
2e + 24p, SHIFT 96, LATE_APPROVAL 40, ACTIVATION 17, RETENTION_LOST 16, with the length in byte 5 (10_ports, Journal record). The packing
of frames (log entry 26), the unused places of the status, its figure below 0 and its counts past 255 (log entries 38, 39 and 47) are the
model's. -/
def Obligations.RecordsAreOfferedInTheirLayout : Prop :=
  ((∀ (tag count : Byte) (s : State), Ready s .fleet →
      (1 ≤ count.toNat → count.toNat ≤ 64 → ∃ rs, rs = (s.journal.offered.take count.toNat).map (fun x => x.2.bytes x.1)
        ∧ exec (.readJournal .fleet tag count) s = .next (s.answer .fleet Kind.readJournal.byte tag
            ⟨false, journalPayloads s.journalStatus (rs.length + 1) rs⟩))
      ∧ (count.toNat = 0 ∨ 64 < count.toNat → exec (.readJournal .fleet tag count) s
        = .next (s.replied .fleet .readJournal tag .range [])))
    ∧ (∀ j : Journal, j.offered.Pairwise (fun x y => x.1 ≤ y.1)
        ∧ ∀ n r, (n, r) ∈ j.offered ↔ (∃ i, (i, SlotContent.whole n r) ∈ j.store) ∧ j.acked < n)
    ∧ (∀ (status : List Byte) (rs : List (List Byte)), status.length = 23 → (∀ r ∈ rs, r.length ≤ 215) →
        (∀ x ∈ journalPayloads status (rs.length + 1) rs, x.length ≤ 240)
        ∧ ∃ (groups : List (List (List Byte))) (last : List (List Byte)), groups.flatten ++ last = rs
          ∧ journalPayloads status (rs.length + 1) rs
            = groups.map (fun g => 0 :: BitVec.ofNat 8 g.length :: g.flatten)
              ++ [0 :: BitVec.ofNat 8 last.length :: (last.flatten ++ status)]
          ∧ (∀ g ∈ groups, 1 ≤ g.length ∧ g.length ≤ 4) ∧ last.length ≤ 4
          ∧ ∀ before g r rest after, groups ++ [last] = before ++ g :: (r :: rest) :: after →
              g.length = 4 ∨ 240 < 2 + g.flatten.length + r.length)
    ∧ ∀ (kind tag : Byte) (payloads : List (List Byte)) (last : List Byte), replyFrames kind tag false (payloads ++ [last])
        = payloads.map (fun x => ⟨kind, tag, 1, x⟩) ++ [⟨kind, tag, 3, last⟩])
  ∧
  (∀ (n number : Nat) (time : ClockTime),
      (∀ r : HireRecord, (JournalRecord.bytes n ⟨number, time, .hire r⟩).length = 65 + 2 * r.extras.length + 24 * r.payments.length)
      ∧ (∀ d o c k, k.length = 15 → (JournalRecord.bytes n ⟨number, time, .shift d o c k⟩).length = 96)
      ∧ (∀ sl h m a t ref, (JournalRecord.bytes n ⟨number, time, .lateApproval sl h m a t ref⟩).length = 40)
      ∧ (∀ ids, (JournalRecord.bytes n ⟨number, time, .activation ids⟩).length = 17)
      ∧ (JournalRecord.bytes n ⟨number, time, .retentionLost⟩).length = 16
      ∧ (∀ b : RecordBody, (JournalRecord.bytes n ⟨number, time, b⟩).getD 5 0
          = BitVec.ofNat 8 (JournalRecord.bytes n ⟨number, time, b⟩).length))

/-- ACK_JOURNAL: a number beyond the newest written is RANGE, one not beyond the acknowledged is OK and changes nothing, any other is
taken: it becomes the acknowledged number, no record up to it is offered any longer and the slots it frees may be programmed again, the
low mark is worked out afresh, and the reply carries the new free slots (R127). The low mark follows the free journal slots and the
low-water level, with JOURNAL_LOW to the Console and Fleet ports when it is set from clear and no notice otherwise (R125). READ_UNFILED
gives each record of the unfiled list in its own frame, numbered 0, and one frame that says so when there is none, and changes nothing;
ACK_UNFILED removes the first c records, and a c of 0, above 4 or above their number is RANGE (R128). The form of the READ_UNFILED frames
(log entry 27), the figure 0 for free slots below 0 (log entry 39), the free slots left out of the reply to an acknowledgement that frees
nothing (log entry 12) and the newest number where the next is 0 (log entry 48) are the model's. -/
def Obligations.AcknowledgementsFreeRecords : Prop :=
  (∀ (tag : Byte) (q : Word) (s : State), Ready s .fleet →
      (s.journal.nextSeq - 1 < q.toNat → exec (.ackJournal .fleet tag q) s = .next (s.replied .fleet .ackJournal tag .range []))
      ∧ (q.toNat ≤ s.journal.nextSeq - 1 → q.toNat ≤ s.journal.acked →
          exec (.ackJournal .fleet tag q) s = .next (s.replied .fleet .ackJournal tag .ok []))
      ∧ (q.toNat ≤ s.journal.nextSeq - 1 → s.journal.acked < q.toNat → ∃ t u,
          t = { s with journal := { s.journal with acked := q.toNat } }.updateLow
          ∧ exec (.ackJournal .fleet tag q) s = .next (t.replied .fleet .ackJournal tag .ok (be2 t.journal.free.toNat))
          ∧ t.journal.acked = q.toNat ∧ (∀ x ∈ t.journal.offered, q.toNat < x.1)
          ∧ (∀ pl n r, slotRead s.journal.store (Place.index pl) = some (.whole n r) → n ≤ q.toNat → pl.page ∉ s.journal.retired →
              t.journal.slotFree pl = true)
          ∧ u = (s.journal.store.filter (fun x => !(s.journal.retired.contains (x.1 / 16)) && x.2.unacked s.journal.acked
              && !(x.2.unacked q.toNat))).length
          ∧ (s.journal.writingOpen = true → t.journal.free = s.journal.free + u)))
  ∧
  (∀ s : State,
      s.updateLow.journal = { s.journal with low := decide (s.journal.free < s.tariffs.config.lowWater) }
      ∧ s.updateLow.ports = (if s.journal.free < s.tariffs.config.lowWater ∧ s.journal.low = false
          then { s.ports with console := s.ports.console.add .journalLow, fleet := s.ports.fleet.add .journalLow } else s.ports)
      ∧ s.updateLow = { s with journal := s.updateLow.journal, ports := s.updateLow.ports })
  ∧
  (∀ (tag count : Byte) (s : State), Ready s .fleet →
      (s.journal.unfiled = [] → exec (.readUnfiled .fleet tag) s
        = .next (s.answer .fleet Kind.readUnfiled.byte tag ⟨false, [[0, 0]]⟩))
      ∧ (s.journal.unfiled ≠ [] → exec (.readUnfiled .fleet tag) s
        = .next (s.answer .fleet Kind.readUnfiled.byte tag ⟨false, s.journal.unfiled.map (fun r => 0 :: 1 :: r.bytes 0)⟩))
      ∧ (1 ≤ count.toNat → count.toNat ≤ 4 → count.toNat ≤ s.journal.unfiled.length → exec (.ackUnfiled .fleet tag count) s
        = .next ({ s with journal := { s.journal with unfiled := s.journal.unfiled.drop count.toNat } }.replied
            .fleet .ackUnfiled tag .ok []))
      ∧ (count.toNat = 0 ∨ 4 < count.toNat ∨ s.journal.unfiled.length < count.toNat → exec (.ackUnfiled .fleet tag count) s
        = .next (s.replied .fleet .ackUnfiled tag .range [])))

/-! ### The Sign Driver -/

/-- The target: dark in CLOSED, OFF_DUTY in CLOSING, the override's in OPEN, and under AUTO VACANT when a slot is FREE and pooling is on
or every slot is FREE, else HIRED; SHARE with VACANT under pooling when a slot is not FREE; goals are the full level in the target and 0
outside it; the ALARM lamp and every level stand, and a derivation that finds the same target changes nothing (R133, R134, R136). A ramp
step: every front lamp above its goal falls by one; then a lamp below its goal rises by one, a group lamp only while the others of the
group stand at 0 after the lowering; SHARE rises by its goal alone; the ALARM lamp, goals, flags and counts stand (R137, R138). -/
def Obligations.TargetAndRamps : Prop :=
  ((∀ ov pooling hires, signTarget .closed ov pooling hires = ⟨none, false⟩
        ∧ signTarget .closing ov pooling hires = ⟨some .offDuty, false⟩
        ∧ signTarget .opened .offDuty pooling hires = ⟨some .offDuty, false⟩
        ∧ signTarget .opened .full pooling hires = ⟨some .hired, false⟩)
    ∧ (∀ (pooling : Bool) (hires : HireTable), ((∃ sl, (hires.get sl).stage = .free) ∧ (pooling = true ∨ ∀ sl, (hires.get sl).stage = .free) →
          signTarget .opened .auto pooling hires = ⟨some .vacant, pooling && !hires.allFree⟩)
        ∧ (¬((∃ sl, (hires.get sl).stage = .free) ∧ (pooling = true ∨ ∀ sl, (hires.get sl).stage = .free)) →
          signTarget .opened .auto pooling hires = ⟨some .hired, false⟩))
    ∧ ∀ s : State, s.rederive.sign.target = s.derivedTarget
        ∧ (s.derivedTarget = s.sign.target → s.rederive = s)
        ∧ (s.derivedTarget ≠ s.sign.target → s.sign.test = none →
            s.rederive.sign.lamps.vacant.goal = (if s.derivedTarget.group = some .vacant then s.fullLevel else 0)
            ∧ s.rederive.sign.lamps.hired.goal = (if s.derivedTarget.group = some .hired then s.fullLevel else 0)
            ∧ s.rederive.sign.lamps.offDuty.goal = (if s.derivedTarget.group = some .offDuty then s.fullLevel else 0)
            ∧ s.rederive.sign.lamps.share.goal = (if s.derivedTarget.share then s.fullLevel else 0))
        ∧ s.rederive.sign.lamps.alarm = s.sign.lamps.alarm
        ∧ (∀ i, (s.rederive.sign.lamps.get i).level = (s.sign.lamps.get i).level)
        ∧ s.rederive = { s with sign := s.rederive.sign })
  ∧
  (∀ (l m : Lamps), m = l.rampStep →
      (∀ i, i ≠ .alarm → (l.get i).goal < (l.get i).level → (m.get i).level = (l.get i).level - 1)
      ∧ (∀ i, i ≠ .alarm → (l.get i).level = (l.get i).goal → (m.get i).level = (l.get i).level)
      ∧ (l.share.level < l.share.goal → m.share.level = l.share.level + 1)
      ∧ (l.vacant.level < l.vacant.goal → m.vacant.level
          = if l.lowerFront.hired.level = 0 ∧ l.lowerFront.offDuty.level = 0 then l.vacant.level + 1 else l.vacant.level)
      ∧ (l.hired.level < l.hired.goal → m.hired.level
          = if l.lowerFront.vacant.level = 0 ∧ l.lowerFront.offDuty.level = 0 then l.hired.level + 1 else l.hired.level)
      ∧ (l.offDuty.level < l.offDuty.goal → m.offDuty.level
          = if l.lowerFront.vacant.level = 0 ∧ l.lowerFront.hired.level = 0 then l.offDuty.level + 1 else l.offDuty.level)
      ∧ m.alarm = l.alarm
      ∧ (∀ i, (m.get i).goal = (l.get i).goal ∧ (m.get i).fault = (l.get i).fault ∧ (m.get i).misses = (l.get i).misses))

/-- SIGN_OVERRIDE with an override is taken in an OPEN shift and the target derived afresh, is SHIFT_STATE otherwise and RANGE for a value
not listed; REPORT changes nothing; every reply carries the status as it then stands (R135). SIGN_TEST with REPORT changes nothing; RUN in
a CLOSED shift with no test running lights VACANT at 15, darkens the other front lamps and is ACCEPTED, and is refused otherwise (R142,
R143). SIGN_CLEAR darkens every lamp at once and clears every flag and count, ends a test, derives target and goals afresh, keeps
override, ambient value and count, restarts the flash of an ACTIVE alarm with its lamp at the full level, and replies with the status as
it stood before (R144). The bytes of the status (log entry 11) and the status an ACCEPTED test carries (log entry 40, its choice) are the
model's. -/
def Obligations.SignRequestsOverrideTestAndClear : Prop :=
  (∀ (tag value : Byte) (s : State),
      (Ready s .console →
        (∀ ov u, overrideOf value = some ov → s.shift.state = .opened →
          u = ({ s with sign := { s.sign with override := ov } } : State).rederive →
          exec (.signOverride .console tag value) s = .next (u.replied .console .signOverride tag .ok u.overrideStatus))
        ∧ ((overrideOf value).isSome → s.shift.state ≠ .opened → exec (.signOverride .console tag value) s
          = .next (s.replied .console .signOverride tag .shiftState s.overrideStatus))
        ∧ (3 < value.toNat → exec (.signOverride .console tag value) s
          = .next (s.replied .console .signOverride tag .range s.overrideStatus))
        ∧ exec (.signOverrideReport .console tag) s = .next (s.replied .console .signOverride tag .ok s.overrideStatus))
      ∧ (Ready s .fleet →
        exec (.signTestReport .fleet tag) s = .next (s.replied .fleet .signTest tag .ok s.testStatus)
        ∧ (s.shift.state = .closed → s.sign.test = none → ∃ t u : State, exec (.signTestRun .fleet tag) s = .next t
          ∧ t = u.replied .fleet .signTest tag .accepted u.testStatus ∧ u = { s with sign := u.sign }
          ∧ u.sign.test = some ⟨.vacant, 100⟩ ∧ u.sign.lamps.vacant.level = 15 ∧ u.sign.lamps.hired.level = 0
          ∧ u.sign.lamps.offDuty.level = 0 ∧ u.sign.lamps.share.level = 0 ∧ u.sign.lamps.alarm = s.sign.lamps.alarm)
        ∧ (s.shift.state ≠ .closed → exec (.signTestRun .fleet tag) s
          = .next (s.replied .fleet .signTest tag .shiftState s.testStatus))
        ∧ (s.shift.state = .closed → s.sign.test.isSome → exec (.signTestRun .fleet tag) s
          = .next (s.replied .fleet .signTest tag .notPermitted s.testStatus))))
  ∧
  (∀ (tag : Byte) (s : State), Ready s .fleet →
      ∃ t, exec (.signClear .fleet tag) s = .next t
        ∧ (∀ i, i ≠ .alarm → (t.sign.lamps.get i).level = 0)
        ∧ (∀ i, (t.sign.lamps.get i).fault = false ∧ (t.sign.lamps.get i).misses = 0)
        ∧ t.sign.test = none ∧ t.sign.target = s.derivedTarget ∧ t.sign.override = s.sign.override ∧ t.sign.night = s.sign.night
        ∧ t.sign.disagree = s.sign.disagree
        ∧ t.sign.lamps.vacant.goal = (if s.derivedTarget.group = some .vacant then s.fullLevel else 0)
        ∧ t.sign.lamps.hired.goal = (if s.derivedTarget.group = some .hired then s.fullLevel else 0)
        ∧ t.sign.lamps.offDuty.goal = (if s.derivedTarget.group = some .offDuty then s.fullLevel else 0)
        ∧ t.sign.lamps.share.goal = (if s.derivedTarget.share then s.fullLevel else 0)
        ∧ (s.alarm.state = .active → t.sign.flash = some ⟨true, 50⟩ ∧ t.sign.lamps.alarm.level = s.fullLevel)
        ∧ (s.alarm.state = .quiet → t.sign.lamps.alarm.level = 0)
        ∧ (t.port .fleet).reply = replyFrames Kind.signClear.byte tag false [Code.ok.byte :: s.testStatus]
        ∧ t = { s with sign := t.sign, ports := t.ports })

/-- A lamp check: below level 8 nothing; a low sense line is a miss, counted to 3, and the third in a row sets the flag; a high one clears
both (R140). SIGN_FAULT goes to the Console and Fleet ports when a front lamp's flag is set from clear, and to the Fleet port alone for
the ALARM lamp (R141). At the tick of the hundredth disagreeing reading the ambient value turns and the full level becomes the goal of
every front lamp in the target; at the last tick of a flash phase the phase turns over and the ALARM lamp goes to the full level or dark
at once (R136, R139). No alarm press falls at the tick, no test runs and no Part clear is in flight. A step of the sign test ends: the
lamp tested goes dark and the next one to 15 with 100 ticks to run; after the ALARM step the test is IDLE, the Fleet port is told, the
front lamps take the goals of the target, and the ALARM lamp its flash or 0 (R143). That each row is the whole tick at which the event
falls is the model's choice (log entry 4), and the order of work in a tick its reading (log entry 9). -/
def Obligations.TheSignChecksFlashesAndTests : Prop :=
  ((∀ (x : Lamp) (high : Bool), (x.level < 8 → x.check high = x)
      ∧ (8 ≤ x.level → x.check true = { x with misses := 0, fault := false })
      ∧ (8 ≤ x.level → x.misses < 2 → x.check false = { x with misses := x.misses + 1 })
      ∧ (8 ≤ x.level → 2 ≤ x.misses → x.check false = { x with misses := 3, fault := true }))
    ∧ ∀ (s : State) (b : LampBits), ∃ t, t = s.checkLamps b
      ∧ (∀ i, i ≠ .alarm → (s.sign.lamps.get i).fault = false → (t.sign.lamps.get i).fault = true →
          (t.port .console).holds .signFault = true ∧ (t.port .fleet).holds .signFault = true)
      ∧ (s.sign.lamps.alarm.fault = false → t.sign.lamps.alarm.fault = true → (t.port .fleet).holds .signFault = true)
      ∧ ((∀ i, i ≠ .alarm → (t.sign.lamps.get i).fault = true → (s.sign.lamps.get i).fault = true) → t.port .console = s.port .console)
      ∧ t.port .payment = s.port .payment ∧ t = { s with sign := { s.sign with lamps := t.sign.lamps }, ports := t.ports })
  ∧
  (∀ (l : Lines) (s : State), s.power = .running → s.partClear = .idle → s.sign.test = none → s.alarm.pressTaken l.alarm = false →
      (l.night ≠ s.sign.night → 99 ≤ s.sign.disagree →
        ∃ t, exec (.ambientChange l) s = .next t ∧ t.sign.night = l.night ∧ t.sign.disagree = 0
          ∧ t.fullLevel = (if l.night then s.tariffs.config.nightLevel else 15)
          ∧ t.sign.lamps.vacant.goal = (if t.sign.target.group = some .vacant then t.fullLevel else 0)
          ∧ t.sign.lamps.hired.goal = (if t.sign.target.group = some .hired then t.fullLevel else 0)
          ∧ t.sign.lamps.offDuty.goal = (if t.sign.target.group = some .offDuty then t.fullLevel else 0)
          ∧ t.sign.lamps.share.goal = (if t.sign.target.share then t.fullLevel else 0))
      ∧ (∀ f, s.sign.flash = some f → f.left ≤ 1 →
        ∃ t, exec (.flashPhase l) s = .next t ∧ t.sign.flash = some ⟨!f.on, 50⟩
          ∧ t.sign.lamps.alarm.level = (if f.on then 0 else t.fullLevel)))
  ∧
  (∀ (l : Lines) (x : SignTest) (s : State), s.power = .running → s.partClear = .idle → s.sign.test = some x → x.left ≤ 1 →
      (∀ i, x.lamp.next = some i →
        ∃ t, exec (.signTestStep l) s = .next t ∧ t.sign.test = some ⟨i, 100⟩ ∧ (t.sign.lamps.get x.lamp).level = 0
          ∧ (t.sign.lamps.get i).level = 15)
      ∧ (x.lamp = .alarm →
        ∃ t, exec (.signTestStep l) s = .next t ∧ t.sign.test = none ∧ (t.port .fleet).holds .signTestDone = true
          ∧ (∀ i, i ≠ .alarm → (t.sign.lamps.get i).level = (s.sign.lamps.get i).level)
          ∧ t.sign.lamps.vacant.goal = (if t.sign.target.group = some .vacant then t.fullLevel else 0)
          ∧ t.sign.lamps.hired.goal = (if t.sign.target.group = some .hired then t.fullLevel else 0)
          ∧ t.sign.lamps.offDuty.goal = (if t.sign.target.group = some .offDuty then t.fullLevel else 0)
          ∧ t.sign.lamps.share.goal = (if t.sign.target.share then t.fullLevel else 0)
          ∧ t.sign.lamps.alarm.level = (match t.sign.flash with
              | some ⟨true, _⟩ => t.fullLevel
              | _ => 0)))

/-! ### The Intercom Switch -/

/-- The elastic buffer: a write puts the sample at the end, a full buffer first losing its oldest and counting an overflow slip; a read
gives 0 while centring below half full, then the oldest sample, which becomes the last taken, and on an empty queue the last one again
with an underflow slip; the fill never passes the depth; slips stop at 65535; the peak is brought up to date after each write and each
read while not centring, a read that ends the centring among them (R146, R147, R148). The output is the read sample times 17 times the
gain, divided by 256 and truncated toward zero, and never larger than the sample; a gain moves one level toward its goal every 32 reads; a
tone is a square wave from the table that starts high (R149, R150, R158). -/
def Obligations.BuffersOutputsAndTones : Prop :=
  (∀ (x : Path) (v : Sample),
      (x.buffer.length < x.depth → (x.write v).buffer = x.buffer ++ [v] ∧ (x.write v).overflows = x.overflows)
      ∧ (x.depth ≤ x.buffer.length → (x.write v).buffer = x.buffer.drop 1 ++ [v]
          ∧ (x.write v).overflows = min (x.overflows + 1) 65535)
      ∧ (1 ≤ x.depth → x.buffer.length ≤ x.depth → (x.write v).buffer.length ≤ x.depth ∧ x.read.2.buffer.length ≤ x.depth)
      ∧ (x.centring = true → x.buffer.length < x.depth / 2 → x.read = (0, x))
      ∧ (∀ w rest, (x.centring = false ∨ x.depth / 2 ≤ x.buffer.length) → x.buffer = w :: rest →
          x.read.1 = w ∧ x.read.2.buffer = rest ∧ x.read.2.last = w ∧ x.read.2.centring = false
          ∧ x.read.2.underflows = x.underflows)
      ∧ ((x.centring = false ∨ x.depth / 2 = 0) → x.buffer = [] →
          x.read.1 = x.last ∧ x.read.2.buffer = [] ∧ x.read.2.last = x.last ∧ x.read.2.underflows = min (x.underflows + 1) 65535)
      ∧ (x.centring = true → (x.write v).peak = x.peak)
      ∧ (x.centring = false → (x.write v).peak = max x.peak (x.write v).distance)
      ∧ (x.centring = true → x.buffer.length < x.depth / 2 → x.read.2.peak = x.peak)
      ∧ ((x.centring = false ∨ x.depth / 2 ≤ x.buffer.length) → x.read.2.peak = max x.peak x.read.2.distance)
      ∧ (x.write v).state = x.state ∧ (x.write v).gain = x.gain ∧ (x.write v).volume = x.volume ∧ (x.write v).depth = x.depth
      ∧ x.read.2.state = x.state ∧ x.read.2.gain = x.gain ∧ x.read.2.volume = x.volume ∧ x.read.2.depth = x.depth)
  ∧
  ((∀ (v : Sample) (g : Nat), g ≤ 15 → (scaled v g).toInt = (v.toInt * (17 * (g : Int))).tdiv 256
      ∧ (scaled v g).toInt.natAbs ≤ v.toInt.natAbs)
    ∧ scaled 1000 8 = 531 ∧ scaled (-1000) 8 = -531 ∧ scaled 32767 15 = 32639 ∧ scaled (-32768) 15 = -32640
    ∧ (∀ (x : Path) (goal : Nat), (x.readCount < 31 → x.ramp goal = { x with readCount := x.readCount + 1 })
      ∧ (31 ≤ x.readCount → x.gain < goal → x.ramp goal = { x with readCount := 0, gain := x.gain + 1 })
      ∧ (31 ≤ x.readCount → goal < x.gain → x.ramp goal = { x with readCount := 0, gain := x.gain - 1 })
      ∧ (31 ≤ x.readCount → goal = x.gain → x.ramp goal = { x with readCount := 0 }))
    ∧ (Config.tone 0 = ⟨10, 6000, 960⟩ ∧ Config.tone 1 = ⟨5, 8000, 2400⟩ ∧ Config.tone 2 = ⟨20, 8000, 4800⟩
      ∧ Config.tone 3 = ⟨8, 10000, 8000⟩)
    ∧ (∀ tone left pos : Nat, (Playing.sample ⟨tone, left, pos⟩).toInt
        = if pos / (Config.tone tone).halfPeriod % 2 = 0 then ((Config.tone tone).amplitude : Int)
          else -((Config.tone tone).amplitude : Int)))

/-- A codec frame: the front frame writes FR, reads RF to the front speaker through the chime and the RF gain, makes the RF ramp step and
sends the monitor sample; the rear frame writes RF, reads FR to the rear speaker through the prompt and the FR gain and makes the FR ramp
step; nothing else in the part moves (R149 to R152, R162). A WAITING path opens at the frame whose ramp step brings the other gain to 0:
its queue is emptied, its last sample is 0, it is centring, it takes the configured depth, and its gain is not touched (R153, R155). The
end of a tone: a prompt with another behind it gives way to that one from the start of its wave; the last one ends the queue, and in PTT
and PRIVATE the quieting follows: a CLOSED FR and an RF that is not OPEN fall silent, and a WAITING path whose other is CLOSED opens from
closed, a WAITING FR from a gain of 0; the chime becomes absent, and in PRIVATE, where it alone wanted RF, RF closes (R153, R155, R159,
R161). That the tone rows are the whole frame at which a tone ends is the model's choice (log entry 4), and the order of work in a frame
its reading (log entry 9). -/
def Obligations.CodecFramesCarrySamples : Prop :=
  (∀ (mic : Sample) (s : State), s.power = .running →
      (∃ t, exec (.frontCodecFrame mic) s = .next t ∧ t = { s with intercom := t.intercom }
        ∧ t.intercom.frontOut = scaled (match s.intercom.chime with
            | some c => c.sample
            | none => s.intercom.rf.read.1) s.intercom.rf.gain
        ∧ t.intercom.rearOut = s.intercom.rearOut
        ∧ (s.alarm.state = .quiet ∨ s.intercom.monitor = .off → t.intercom.monitorOut = 0)
        ∧ (s.alarm.state = .active → s.intercom.monitor = .cabin → t.intercom.monitorOut = s.intercom.rf.read.1)
        ∧ (s.alarm.state = .active → s.intercom.monitor = .front → t.intercom.monitorOut = mic)
        ∧ (s.alarm.state = .active → s.intercom.monitor = .mix → t.intercom.monitorOut.toInt
            = max (-32767) (min 32767 (s.intercom.rf.read.1.toInt + mic.toInt)))
        ∧ (lastSample s.intercom.chime = false → s.intercom.fr.state ≠ .waiting → s.intercom.rf.state ≠ .waiting →
            t.intercom.fr = s.intercom.fr.write mic
            ∧ t.intercom.rf = s.intercom.rf.read.2.ramp (if s.intercom.rf.state = .opened then s.intercom.rf.volume else 0)
            ∧ t.intercom.chime = s.intercom.chime.map (fun c => ⟨c.tone, c.left - 1, c.pos + 1⟩)))
      ∧ (∃ t, exec (.rearCodecFrame mic) s = .next t ∧ t = { s with intercom := t.intercom }
        ∧ t.intercom.rearOut = scaled (match s.intercom.playing with
            | some c => c.sample
            | none => s.intercom.fr.read.1) s.intercom.fr.gain
        ∧ t.intercom.frontOut = s.intercom.frontOut ∧ t.intercom.monitorOut = s.intercom.monitorOut
        ∧ (lastSample s.intercom.playing = false → s.intercom.fr.state ≠ .waiting → s.intercom.rf.state ≠ .waiting →
            t.intercom.rf = s.intercom.rf.write mic
            ∧ t.intercom.fr = s.intercom.fr.read.2.ramp (if s.intercom.playing.isSome ∨ s.intercom.fr.state = .opened
                then s.intercom.fr.volume else 0)
            ∧ t.intercom.playing = s.intercom.playing.map (fun c => ⟨c.tone, c.left - 1, c.pos + 1⟩))))
  ∧
  (∀ (mic : Sample) (s : State), s.power = .running → s.intercom.chime = none → s.intercom.playing = none →
      (s.intercom.fr.state = .waiting → s.intercom.rf.state = .closed → s.intercom.rf.gain = 1 → 31 ≤ s.intercom.rf.readCount →
        ∃ t, exec (.frontCodecFrame mic) s = .next t ∧ t.intercom.rf.gain = 0 ∧ t.intercom.fr.state = .opened
          ∧ t.intercom.fr.buffer = [] ∧ t.intercom.fr.last = 0 ∧ t.intercom.fr.centring = true
          ∧ t.intercom.fr.depth = s.tariffs.config.depth ∧ t.intercom.fr.gain = s.intercom.fr.gain)
      ∧ (s.intercom.rf.state = .waiting → s.intercom.fr.state = .closed → s.intercom.fr.gain = 1 → 31 ≤ s.intercom.fr.readCount →
        ∃ t, exec (.rearCodecFrame mic) s = .next t ∧ t.intercom.fr.gain = 0 ∧ t.intercom.rf.state = .opened
          ∧ t.intercom.rf.buffer = [] ∧ t.intercom.rf.last = 0 ∧ t.intercom.rf.centring = true
          ∧ t.intercom.rf.depth = s.tariffs.config.depth ∧ t.intercom.rf.gain = s.intercom.rf.gain))
  ∧
  (∀ (mic : Sample) (x : Playing) (s : State), s.power = .running → x.left ≤ 1 →
      (s.intercom.playing = some x →
        (∀ tone rest, s.intercom.waiting = tone :: rest → ∃ t, exec (.promptEnd mic) s = .next t
          ∧ t.intercom.playing = some ⟨tone, (Config.tone tone).samples, 0⟩ ∧ t.intercom.waiting = rest
          ∧ t = { s with intercom := t.intercom })
        ∧ (s.intercom.waiting = [] → ∃ t, exec (.promptEnd mic) s = .next t ∧ t.intercom.playing = none ∧ t.intercom.waiting = []
          ∧ ((s.intercom.mode = .ptt ∨ s.intercom.mode = .privateTalk) →
            (s.intercom.fr.state = .closed → t.intercom.fr.gain = 0)
            ∧ (s.intercom.rf.state ≠ .opened → t.intercom.rf.gain = 0)
            ∧ (s.intercom.rf.state = .waiting → s.intercom.fr.state = .closed → t.intercom.rf.state = .opened ∧ t.intercom.rf.buffer = []
                ∧ t.intercom.rf.last = 0 ∧ t.intercom.rf.centring = true ∧ t.intercom.rf.depth = s.tariffs.config.depth)
            ∧ (s.intercom.fr.state = .waiting → s.intercom.rf.state = .closed → t.intercom.fr.state = .opened ∧ t.intercom.fr.buffer = []
                ∧ t.intercom.fr.last = 0 ∧ t.intercom.fr.centring = true ∧ t.intercom.fr.depth = s.tariffs.config.depth
                ∧ t.intercom.fr.gain = (if 31 ≤ s.intercom.fr.readCount ∧ 0 < s.intercom.fr.volume then 1 else 0)))
          ∧ t = { s with intercom := t.intercom }))
      ∧ (s.intercom.chime = some x →
        ∃ t, exec (.chimeEnd mic) s = .next t ∧ t.intercom.chime = none ∧ t = { s with intercom := t.intercom }
          ∧ (s.intercom.mode = .privateTalk → t.intercom.rf.state = .closed)))

/-- SET_TALK_MODE takes the mode and derives the wanted paths: none in OFF, both open in DUPLEX, one wanted at most in PTT and PRIVATE,
where entering from OFF or DUPLEX silences every path not OPEN, FR excepted while a prompt plays; leaving PRIVATE ends the chime; the mode
already held changes nothing; an unlisted value is RANGE (R154, R155). The order of the derivation, the quieting and the opening is the
model's reading (log entry 23). -/
def Obligations.TalkModesDecideTheWantedPaths : Prop :=
  ∀ (tag mode : Byte) (s : State), Ready s .console →
    (∀ m, talkModeOf mode = some m → m ≠ s.intercom.mode → ∃ t, exec (.setTalkMode .console tag mode) s = .next t
      ∧ t.intercom.mode = m
      ∧ (m = .off → t.intercom.fr.state = .closed ∧ t.intercom.rf.state = .closed)
      ∧ (m = .duplex → t.intercom.fr.state = .opened ∧ t.intercom.rf.state = .opened)
      ∧ (m = .ptt → s.intercom.held = true → t.intercom.fr.state ≠ .closed ∧ t.intercom.rf.state = .closed)
      ∧ (m = .ptt → s.intercom.held = false → t.intercom.rf.state ≠ .closed ∧ t.intercom.fr.state = .closed)
      ∧ (m = .privateTalk → s.intercom.held = true → t.intercom.fr.state ≠ .closed ∧ t.intercom.rf.state = .closed)
      ∧ (m = .privateTalk → s.intercom.held = false → s.intercom.chime = none →
          t.intercom.fr.state = .closed ∧ t.intercom.rf.state = .closed)
      ∧ ((m = .ptt ∨ m = .privateTalk) → (s.intercom.mode = .off ∨ s.intercom.mode = .duplex) → s.intercom.playing = none →
          t.intercom.fr.gain = 0 ∨ t.intercom.rf.gain = 0)
      ∧ ((m = .ptt ∨ m = .privateTalk) → (s.intercom.mode = .off ∨ s.intercom.mode = .duplex) →
          (t.intercom.rf.state ≠ .opened → t.intercom.rf.gain = 0)
          ∧ (t.intercom.fr.state ≠ .opened → s.intercom.playing = none → t.intercom.fr.gain = 0)
          ∧ (s.intercom.playing.isSome → t.intercom.fr.gain = s.intercom.fr.gain))
      ∧ (s.intercom.fr.state = .opened → t.intercom.fr.state = .opened → t.intercom.fr.gain = s.intercom.fr.gain)
      ∧ (s.intercom.rf.state = .opened → t.intercom.rf.state = .opened → t.intercom.rf.gain = s.intercom.rf.gain)
      ∧ (m ≠ .privateTalk → t.intercom.chime = none) ∧ t.intercom.playing = s.intercom.playing
      ∧ t.intercom.waiting = s.intercom.waiting
      ∧ (t.port .console).reply = replyFrames Kind.setTalkMode.byte tag false [[Code.ok.byte]]
      ∧ t = { s with intercom := t.intercom, ports := t.ports })
    ∧ (talkModeOf mode = some s.intercom.mode → exec (.setTalkMode .console tag mode) s
      = .next (s.replied .console .setTalkMode tag .ok []))
    ∧ (3 < mode.toNat → exec (.setTalkMode .console tag mode) s = .next (s.replied .console .setTalkMode tag .range []))

/-- SET_VOLUME stores a volume of 0 to 15 and replies with the gain; POST_PROMPT queues a tone of 0 to 2, playing the first at once, and
is FULL with two; SET_MONITOR stores a listed select; each unlisted value is RANGE (R157, R160, R162). READ_INTERCOM answers with the
intercom as it stands and clears slips and peaks; INTERCOM_CLEAR empties both paths, their gains, counts and peaks, the prompts and the
chime, keeps mode, volumes, monitor select and push-to-talk, and opens at once every path the mode wants (R163, R164). The encodings of
the reply items are the model's reading (log entry 11). -/
def Obligations.IntercomRequestsStoreReadAndClear : Prop :=
  (∀ (tag value : Byte) (s : State),
      (Ready s .console → value.toNat ≤ 15 →
        exec (.setVolume .console tag 0 value) s
          = .next ({ s with intercom := { s.intercom with fr := { s.intercom.fr with volume := value.toNat } } }.replied
              .console .setVolume tag .ok [BitVec.ofNat 8 s.intercom.fr.gain])
        ∧ exec (.setVolume .console tag 1 value) s
          = .next ({ s with intercom := { s.intercom with rf := { s.intercom.rf with volume := value.toNat } } }.replied
              .console .setVolume tag .ok [BitVec.ofNat 8 s.intercom.rf.gain]))
      ∧ (∀ path : Byte, Ready s .console → (1 < path.toNat ∨ 15 < value.toNat) → exec (.setVolume .console tag path value) s
          = .next (s.replied .console .setVolume tag .range []))
      ∧ (Ready s .payment → value.toNat ≤ 2 →
        (s.intercom.playing = none → s.intercom.waiting = [] → exec (.postPrompt .payment tag value) s
          = .next ({ s with intercom := { s.intercom with
              playing := some ⟨value.toNat, (Config.tone value.toNat).samples, 0⟩ } }.replied .payment .postPrompt tag .ok [1]))
        ∧ (s.intercom.playing.isSome → s.intercom.waiting = [] → exec (.postPrompt .payment tag value) s
          = .next ({ s with intercom := { s.intercom with waiting := [value.toNat] } }.replied .payment .postPrompt tag .ok [2]))
        ∧ (s.intercom.playing.isSome → s.intercom.waiting ≠ [] → exec (.postPrompt .payment tag value) s
          = .next (s.replied .payment .postPrompt tag .full [])))
      ∧ (Ready s .payment → 2 < value.toNat → exec (.postPrompt .payment tag value) s
          = .next (s.replied .payment .postPrompt tag .range []))
      ∧ (Ready s .fleet →
        (∀ m, monitorOf value = some m → exec (.setMonitor .fleet tag value) s
          = .next ({ s with intercom := { s.intercom with monitor := m } }.replied .fleet .setMonitor tag .ok []))
        ∧ (3 < value.toNat → exec (.setMonitor .fleet tag value) s = .next (s.replied .fleet .setMonitor tag .range []))))
  ∧
  (∀ (tag : Byte) (s : State),
      (Ready s .console → exec (.readIntercom .console tag) s
        = .next ({ s with intercom := { s.intercom with
            fr := { s.intercom.fr with
              overflows := 0, underflows := 0, peak := if s.intercom.fr.centring then 0 else s.intercom.fr.distance }
            rf := { s.intercom.rf with
              overflows := 0, underflows := 0, peak := if s.intercom.rf.centring then 0 else s.intercom.rf.distance } } }.replied
                .console .readIntercom tag .ok s.intercom.bytes))
      ∧ (∀ p, Kind.offered .intercomClear p = true → Ready s p → ∃ t, exec (.intercomClear p tag) s = .next t
        ∧ (∀ x, x = t.intercom.fr ∨ x = t.intercom.rf → x.state ≠ .waiting ∧ x.buffer = [] ∧ x.last = 0 ∧ x.gain = 0
            ∧ x.readCount = 0 ∧ x.overflows = 0 ∧ x.underflows = 0 ∧ x.peak = 0 ∧ x.depth = s.tariffs.config.depth
            ∧ (x.centring = true ↔ x.state = .opened))
        ∧ (t.intercom.fr.state = .opened ↔ s.intercom.mode = .duplex
            ∨ (s.intercom.mode = .ptt ∨ s.intercom.mode = .privateTalk) ∧ s.intercom.held = true)
        ∧ (t.intercom.rf.state = .opened ↔ s.intercom.mode = .duplex ∨ s.intercom.mode = .ptt ∧ s.intercom.held = false)
        ∧ t.intercom.playing = none ∧ t.intercom.waiting = [] ∧ t.intercom.chime = none
        ∧ t.intercom.mode = s.intercom.mode ∧ t.intercom.held = s.intercom.held ∧ t.intercom.monitor = s.intercom.monitor
        ∧ t.intercom.fr.volume = s.intercom.fr.volume ∧ t.intercom.rf.volume = s.intercom.rf.volume
        ∧ (t.port p).reply = replyFrames Kind.intercomClear.byte tag false [[Code.ok.byte]]
        ∧ t = { s with intercom := t.intercom, ports := t.ports }))

/-! ### The Alarm Unit -/

/-- A press taken while the alarm is QUIET makes it ACTIVE, puts a new entry with the time, a count of 1 and the stages of the slots at
the end of a log of at most eight, starts the flash with the ALARM lamp at the full level and tells the Fleet port; the console and
payment notices and the front lamps' goals stand (R166, R167). The tick is no fare tick, no sign test runs and no Part clear is in flight;
the console's notices stand when no call press is taken at the tick, and the goals when the ambient value does not turn at it.
ALARM_STAND_DOWN ends an ACTIVE alarm: the newest entry takes the time, the flash ends with the ALARM lamp dark, and the reply carries the
activation time and press count of that entry; on a QUIET alarm it replies OK and changes nothing. READ_ALARM_LOG changes nothing (R169,
R170). That the row of a press is the whole tick at which it is taken is the model's choice (log entry 4); that no count precedes the
log's entries (log entry 42) that the reply to a stand-down of a QUIET alarm carries no items (log entry 12) and the numbers of the stages
in the log's bytes (log entry 11) are its readings. -/
def Obligations.TheAlarmIsRaisedAndStoodDown : Prop :=
  (∀ (l : Lines) (s : State), s.power = .running → s.partClear = .idle → s.sign.test = none → s.fareNext = false →
      l.alarm = true → s.alarm.armed = true → s.alarm.pressRun = 49 → s.alarm.state = .quiet →
      ∃ t, exec (.alarmPress l) s = .next t ∧ t.alarm.state = .active ∧ t.alarm.armed = false ∧ t.alarm.pressRun = 50
        ∧ t.alarm.log = (if 8 ≤ s.alarm.log.length then s.alarm.log.drop 1 else s.alarm.log)
            ++ [⟨s.clock, none, 1, (s.hire .a).stage, (s.hire .b).stage, (s.hire .c).stage⟩]
        ∧ t.sign.flash = some ⟨true, 50⟩ ∧ t.sign.lamps.alarm.level = t.fullLevel
        ∧ t.port .fleet = (s.port .fleet).add .alarm ∧ t.port .payment = s.port .payment
        ∧ (s.intercom.mode ≠ .privateTalk ∨ s.intercom.callPressed l.call = false → t.port .console = s.port .console)
        ∧ (ambientTurns s.sign l.night = false → ∀ i, i ≠ .alarm → (t.sign.lamps.get i).goal = (s.sign.lamps.get i).goal)
        ∧ t.sign.target = s.sign.target
        ∧ t.intercom.monitor = s.intercom.monitor)
  ∧
  (∀ (tag : Byte) (s : State), Ready s .fleet →
      (∀ older e, s.alarm.state = .active → s.alarm.log = older ++ [e] → ∃ t u : State, exec (.alarmStandDown .fleet tag) s = .next t
        ∧ t = u.replied .fleet .alarmStandDown tag .ok (e.activated.bytes ++ [BitVec.ofNat 8 e.presses])
        ∧ u = { s with alarm := u.alarm, sign := u.sign }
        ∧ u.alarm = { s.alarm with state := .quiet, log := older ++ [{ e with stoodDown := some s.clock }] }
        ∧ u.sign.flash = none
        ∧ ((∀ x, s.sign.test = some x → x.lamp ≠ .alarm) → u.sign.lamps.alarm.level = 0)
        ∧ (∀ i, i ≠ .alarm → u.sign.lamps.get i = s.sign.lamps.get i))
      ∧ (s.alarm.state = .quiet → exec (.alarmStandDown .fleet tag) s = .next (s.replied .fleet .alarmStandDown tag .ok []))
      ∧ exec (.readAlarmLog .fleet tag) s = .next (s.replied .fleet .readAlarmLog tag .ok
          (s.alarm.state.byte :: s.alarm.log.flatMap AlarmEntry.bytes)))

/-- A press taken while the alarm is ACTIVE raises the press count of the newest log entry by one, stopping at 255, and adds ALARM to the
Fleet port's notice set, where it stands once; the flash goes on as a tick takes it, the monitor output and select stand, and no entry is
made (R168). That the row of a press is the whole tick at which it is taken, the flash advancing in it, is the model's choice (log entry
4). -/
def Obligations.PressAgainCountsInTheNewestEntry : Prop :=
  ∀ (l : Lines) (s : State) (older : List AlarmEntry) (e : AlarmEntry), s.power = .running → s.partClear = .idle →
    l.alarm = true → s.alarm.armed = true → s.alarm.pressRun = 49 → s.alarm.state = .active → s.alarm.log = older ++ [e] →
    ∃ t, exec (.alarmPress l) s = .next t ∧ t.alarm.state = .active
      ∧ t.alarm.log = older ++ [{ e with presses := min (e.presses + 1) 255 }]
      ∧ (t.port .fleet).holds .alarm = true
      ∧ (∀ x : Port, x.holds .alarm = true → x.add .alarm = x)
      ∧ t.sign.flash = (match s.sign.flash with
          | some f => if f.left ≤ 1 then some ⟨!f.on, 50⟩ else some ⟨f.on, f.left - 1⟩
          | none => none)
      ∧ t.intercom.monitorOut = s.intercom.monitorOut ∧ t.intercom.monitor = s.intercom.monitor

/-- Of two states that differ in the alarm, the ALARM lamp, the flash, the monitor select and sample and the Fleet port alone, the console
sees the same: its attention line, the reply to every request it may make, and after every event the same port, indicators and attention
line, the Fleet port being at the same point of its framing (R172). The two states differ no further after the event, save that a
CLEAR_PART of the Fleet port is refused by R192 in the one whose alarm is ACTIVE. An alarm press and a phase of the flash are the tick
they fall in (log entry 4, the model's choice). -/
def Obligations.ConsoleLearnsNothingOfTheAlarm : Prop :=
  ∀ s u : State, AlarmApart s u →
    attention u .console = attention s .console
    ∧ (∀ (k : Kind) (pl : List Byte), k.offered .console = true →
      (ownerOf .console pl k u).2 = (ownerOf .console pl k s).2
      ∧ (ownerOf .console pl k u).1.port .console = (ownerOf .console pl k s).1.port .console
      ∧ (ownerOf .console pl k u).1.indicators = (ownerOf .console pl k s).1.indicators
      ∧ attention (ownerOf .console pl k u).1 .console = attention (ownerOf .console pl k s).1 .console)
    ∧ (∀ (i : Instr) (t v : State), (∀ l, i ≠ .alarmPress l ∧ i ≠ .flashPhase l) →
        (u.port .fleet).receive = (s.port .fleet).receive → (u.port .fleet).outstanding = (s.port .fleet).outstanding →
        exec i s = .next t → exec i u = .next v →
        v.port .console = t.port .console ∧ v.indicators = t.indicators ∧ attention v .console = attention t .console
        ∧ (¬ClearsPart s i ∨ u.alarm.state = s.alarm.state → AlarmApart t v))
    ∧ (∀ l, (s.alarm.pressTaken l.alarm = true → exec (.alarmPress l) s = exec (.tick l) s)
        ∧ (s.phaseEnds = true → exec (.flashPhase l) s = exec (.tick l) s)
        ∧ (s.alarm.pressTaken l.alarm = false → exec (.alarmPress l) s = .next s)
        ∧ (s.phaseEnds = false → exec (.flashPhase l) s = .next s))

/-! ### Part clear and power -/

/-- CLEAR_PART, its checks passing, is ACCEPTED, closes an open chain and decides on the journal recovery; it is refused STORE_BUSY,
SHIFT_STATE and NOT_PERMITTED in that order (R130, R192). The completion of Part clear: sign and intercom at their power-on values with
the override AUTO, staging a copy of the active set, no chain, notices, masks, snapshots and indicators at their power-on values without
POWER_RESTORED, CLEAR_DONE to the Fleet port; framing and replies of the ports, hires, shift, journal, alarm, clock and configuration are
kept (R173, R193). The alarm is QUIET. Part clear goes on: at the next tick after its acceptance with the queue empty it completes, or its
recovery begins when the three conditions still hold; the recovery's end makes the retired list afresh from the failed pages, empties the
store, reopens writing or closes it when more than eight failed, keeps the numbering, and completes Part clear (R130, R192). In the first
case the tick is no fare tick. The tick at which Part clear completes or its recovery begins and the page a recovery goes on from (log
entry 22) and the empty slots of a page that failed its test (log entry 51) are the model's readings; the lines are held as the last tick
or start-up read them (its choice, log entries 5 and 41), and the newest number is 0 where the next is 0 (its choice, log entry 48). -/
def Obligations.PartClearRunsItsCourse : Prop :=
  (∀ (tag : Byte) (s : State), Ready s .fleet →
      (s.tariffs.activation = none → s.tariffs.configWrite = none → s.partClear = .idle → s.shift.state = .closed →
        s.alarm.state = .quiet → exec (.clearPart .fleet tag) s
          = .next ({ s with
              tariffs := { s.tariffs with chain := Chain.cleared }
              partClear := if s.journal.state ≠ JournalState.normal ∧ s.journal.acked = s.journal.nextSeq - 1 ∧ s.journal.unfiled = []
                then PartClear.waiting else PartClear.plain }.replied .fleet .clearPart tag .accepted []))
      ∧ (s.tariffs.activation.isSome ∨ s.tariffs.configWrite.isSome ∨ s.partClear ≠ .idle →
          exec (.clearPart .fleet tag) s = .next (s.replied .fleet .clearPart tag .storeBusy []))
      ∧ (s.tariffs.activation = none → s.tariffs.configWrite = none → s.partClear = .idle → s.shift.state ≠ .closed →
          exec (.clearPart .fleet tag) s = .next (s.replied .fleet .clearPart tag .shiftState []))
      ∧ (s.tariffs.activation = none → s.tariffs.configWrite = none → s.partClear = .idle → s.shift.state = .closed →
          s.alarm.state = .active → exec (.clearPart .fleet tag) s = .next (s.replied .fleet .clearPart tag .notPermitted [])))
  ∧
  (∀ s : State, s.alarm.state = .quiet → ∃ t, t = s.completePartClear
      ∧ t.partClear = .idle ∧ t.sign.override = .auto ∧ t.sign.test = none ∧ t.sign.flash = none
      ∧ (∀ i, (t.sign.lamps.get i).level = 0 ∧ (t.sign.lamps.get i).fault = false ∧ (t.sign.lamps.get i).misses = 0)
      ∧ (s.shift.state = .closed → t.sign.target = ⟨none, false⟩ ∧ ∀ i, (t.sign.lamps.get i).goal = 0)
      ∧ t.intercom.mode = .off ∧ t.intercom.playing = none ∧ t.intercom.waiting = [] ∧ t.intercom.chime = none
      ∧ t.intercom.monitor = .off ∧ t.intercom.held = s.pins.talk
      ∧ (∀ x, x = t.intercom.fr ∨ x = t.intercom.rf →
          x = ⟨.closed, [], s.tariffs.config.depth, false, 0, 8, 0, 0, 0, 0, 0⟩)
      ∧ t.tariffs = { s.tariffs with staging := s.tariffs.active, chain := Chain.cleared } ∧ t.indicators = 0
      ∧ (∀ p, t.port p = { s.port p with
          notices := if p = .fleet then NoticeKind.clearDone.mask else 0
          enable := deliveredMask p
          stageMask := defaultStageMask p
          snapshot := none })
      ∧ t = { s with
          partClear := .idle, sign := t.sign, intercom := t.intercom, tariffs := t.tariffs, indicators := 0, ports := t.ports })
  ∧
  (∀ (s : State), s.power = .running →
      (∀ l : Lines, s.journal.queue = [] → s.fareNext = false → s.alarm.state = .quiet → l.alarm = false →
        s.shift.state = .closed → (s.partClear = .plain ∨ s.partClear = .waiting ∧ s.journal.recoveryDue = false) →
        ∃ t, exec (.partClearComplete l) s = .next t ∧ t.partClear = .idle ∧ t.indicators = 0
          ∧ t.tariffs.staging = s.tariffs.active ∧ t.tariffs.active = s.tariffs.active ∧ t.journal = s.journal ∧ t.shift = s.shift
          ∧ t.hires = s.hires ∧ (∀ i, (t.sign.lamps.get i).level = 0) ∧ t.intercom.mode = .off
          ∧ (t.port .fleet).notices = NoticeKind.clearDone.mask ∧ (t.port .console).notices = 0)
      ∧ (s.partClear = .waiting → s.journal.queue = [] →
        (s.journal.recoveryDue = true → exec .journalRecoveryStart s = .next { s with partClear := .recovering })
        ∧ (s.journal.recoveryDue = false → exec .journalRecoveryStart s = .next s.completePartClear))
      ∧ (∀ failed, s.partClear = .recovering → ∃ t, exec (.journalRecoveryEnd failed) s = .next t ∧ t.partClear = .idle
          ∧ t.journal.store = [] ∧ t.journal.retired = failed.take 8
          ∧ t.journal.state = (if 8 < failed.length then .fault .retiredList else .normal)
          ∧ t.journal.writer = freshPage (failed.take 8) s.journal.newestPage
          ∧ t.journal.nextSeq = s.journal.nextSeq ∧ t.journal.acked = s.journal.acked ∧ t.journal.unfiled = s.journal.unfiled
          ∧ (failed.length ≤ 8 → s.journal.queue = [] → t.journal.free = (16 * (256 - failed.length) : Nat))
          ∧ (t.port .fleet).holds .clearDone = true))

/-- The power-fail warning negates the attention lines, darkens the drive outputs and silences the speaker and monitor slots; the freeze
writes the check word and the closed mark; a frozen part takes no event but the clock's second and the supply's own, and between warning
and freeze no pulse, tick, codec frame or completion is taken (R181, R190). -/
def Obligations.WarningAndFreezeStopTheWork : Prop :=
  ∀ s : State,
    (s.power = .running → ∃ t, exec .powerFailWarning s = .next t
      ∧ t = { s with power := .failing, intercom := { s.intercom with frontOut := 0, rearOut := 0, monitorOut := 0 } }
      ∧ (∀ p, attention t p = false) ∧ ∀ i, driveLevel t i = 0)
    ∧ (s.power = .failing → exec .freeze s = .next { s with power := .frozen, checkWord := true, closedMark := true })
    ∧ (s.power = .frozen → ∀ c, c ≠ .rtcSecond → (∀ u, c ≠ .freezeExit u ∧ c ≠ .powerOn u) → exec c s = .next s)
    ∧ (s.power ≠ .running → (∀ l sl entry, exec (.tick l) s = .next s ∧ exec (.fareTick l) s = .next s
          ∧ exec (.ambientChange l) s = .next s ∧ exec (.flashPhase l) s = .next s ∧ exec (.signTestStep l) s = .next s
          ∧ exec (.bookingExpired sl l) s = .next s ∧ exec (.paymentExpired sl entry l) s = .next s
          ∧ exec (.claimExpired sl l) s = .next s ∧ exec (.partClearComplete l) s = .next s ∧ exec (.alarmPress l) s = .next s)
        ∧ (∀ mic, exec (.frontCodecFrame mic) s = .next s ∧ exec (.rearCodecFrame mic) s = .next s
          ∧ exec (.promptEnd mic) s = .next s ∧ exec (.chimeEnd mic) s = .next s)
        ∧ (∀ failed, exec (.journalRecoveryEnd failed) s = .next s)
        ∧ exec .wheelPulse s = .next s ∧ exec .totalMetres100m s = .next s ∧ exec .configWriteComplete s = .next s
        ∧ exec .configWriteFail s = .next s ∧ exec .activationDone s = .next s ∧ exec .activationFailed s = .next s
        ∧ exec .totalizerWriteComplete s = .next s ∧ exec .totalizerWriteFail s = .next s ∧ exec .journalVerifyPass s = .next s
        ∧ exec .journalVerifyFail s = .next s ∧ exec .journalRecoveryStart s = .next s)

/-- A start-up with the retention memory intact, at power-on or on leaving a freeze, both sections sound, filing able to go on or nothing
to file: running hires are SUSPENDED with reason POWER and one power interruption is counted, a STOPPED hire loses its claim and its
PENDING entries and enters FILING when covered, the others stand; shift, totalizers, journal bookkeeping, alarm, override, clock and count
are kept; a totalizer write begins; a Part clear ends, and a recovery cut off leaves the journal in FAULT with the pages erased so far
holding nothing; working memory and ports take their power-on values with POWER_RESTORED, and ALARM for the Fleet port while the alarm is
ACTIVE (R25, R26, R104, R111, R129, R131, R171, R173, R188, R191, R192). A start-up that finds no filing in flight, nothing queued and no
slot for a record (writing closed, or the writer's slot not free): the HIRE record of each hire it sends to FILING goes to the unfiled
list, A before B before C, without a number, and is complete at once, the slot FREE; when they were the last of a CLOSING shift, its SHIFT
record follows them there and the shift is CLOSED (R23, R102, R103, R124). With the tariff section bad every place of the active set is
empty and each hire aboard is charged no step any more; with the configuration section bad the record is that of R59 and each metre
remainder is brought below its k, the metres drawn joining the count it feeds (R51, R52, R59). Which remainders these are is the model's
reading (log entry 20). That the facts a start-up meets are its operands is the model's choice (log entry 6), and that its notices are set
after the restoration is its reading (log entry 29), as are the low mark under another level that is loaded (log entry 46) and the route
and reference left absent in an entry made EXPIRED (log entry 52); that no byte of a transfer stands in the ports (log entry 16) and that
a page cut off in its erasure reads empty or as it was (log entry 53) are its choices. -/
def Obligations.StartUpTakesUpTheRetainedState : Prop :=
  (∀ (u : StartUp) (s t : State), (s.journal.steady ∨ (s.journal.queue = [] ∧ ∀ sl, (s.hire sl).released.settled = false)) →
      s.tariffs.configBad u = false → s.tariffs.tariffBad u = false → t = s.startUp true u →
      (s.power = .frozen → exec (.freezeExit u) s = .next t)
      ∧ (s.closedMark = true → s.checkWord = true → u.retentionGood = true → exec (.powerOn u) s = .next t)
      ∧ (∀ sl st, (s.hire sl).stage = st → (st = .engaged ∨ st = .metering) →
          t.hire sl = { s.hire sl with stage := .suspended, suspendReason := some .power, resumeStage := some st })
      ∧ (∀ sl, (s.hire sl).stage = .stopped → t.hire sl = if (s.hire sl).released.settled
          then { (s.hire sl).released with stage := .filing, outcome := some .paid } else (s.hire sl).released)
      ∧ (∀ sl, (s.hire sl).running = false → (s.hire sl).stage ≠ .stopped → t.hire sl = s.hire sl)
      ∧ t.shift.counters = (if s.hires.running = 0 then s.shift.counters else (s.shift.count .powerInterruptions 1).counters)
      ∧ t.shift.state = s.shift.state ∧ t.shift.number = s.shift.number ∧ t.shift.driver = s.shift.driver
      ∧ t.shift.pooling = s.shift.pooling ∧ t.shift.ceiling = s.shift.ceiling ∧ t.shift.offlineTotal = s.shift.offlineTotal
      ∧ t.shift.openTime = s.shift.openTime ∧ t.shift.closeTime = s.shift.closeTime ∧ t.shift.summary = s.shift.summary
      ∧ t.shift.totals = s.shift.totals ∧ t.shift.totalsWrite = some ⟨s.shift.totals, 0⟩ ∧ t.shift.totalsStatus = .ok
      ∧ (s.partClear ≠ .recovering → t.journal.store = s.journal.store)
      ∧ (s.partClear = .recovering → ∀ i, slotRead t.journal.store i = if i / 16 ∈ u.erased then none else slotRead s.journal.store i)
      ∧ t.partClear = .idle ∧ t.journal.nextSeq = s.journal.nextSeq ∧ t.journal.acked = s.journal.acked
      ∧ t.journal.retired = s.journal.retired ∧ t.journal.state = s.journal.state ∧ t.journal.unfiled = s.journal.unfiled
      ∧ (s.journal.inFlight.isSome → t.journal.inFlight = s.journal.inFlight)
      ∧ ((∀ sl, (s.hire sl).released.settled = false) → t.journal.low = if t.tariffs.config.lowWater = s.tariffs.config.lowWater
          then s.journal.low else decide (s.journal.free < t.tariffs.config.lowWater))
      ∧ t.alarm = { s.alarm with armed := true, pressRun := 0, releaseRun := 0 } ∧ t.sign.override = s.sign.override
      ∧ t.sign.night = u.lines.night ∧ t.sign.test = none ∧ t.clock = s.clock ∧ t.clockStatus = s.clockStatus
      ∧ t.timeBase = s.timeBase ∧ t.nextHire = s.nextHire ∧ t.vacantRem = s.vacantRem ∧ t.odoRem = s.odoRem
      ∧ t.power = .running ∧ t.closedMark = false ∧ t.indicators = 0 ∧ t.tariffs.staging = t.tariffs.active
      ∧ t.tariffs.chain = Chain.cleared ∧ t.tariffs.activation = none ∧ t.intercom.mode = .off ∧ t.intercom.monitor = .off
      ∧ (∀ p, t.port p = ⟨none, [], 0, none, none, NoticeKind.powerRestored.mask
            ||| (if p = .fleet ∧ s.alarm.state = .active then NoticeKind.alarm.mask else 0), deliveredMask p, defaultStageMask p, none, []⟩))
  ∧
  (∀ (u : StartUp) (s t : State) (paid : List SlotId) (records : List JournalRecord), s.journal.inFlight = none → s.journal.queue = [] →
      (s.journal.writingOpen = false ∨ (s.partClear ≠ .recovering ∧ s.journal.slotFree s.journal.writer = false)) →
      s.tariffs.configBad u = false → s.tariffs.tariffBad u = false → t = s.startUp true u →
      paid = [SlotId.a, .b, .c].filter (fun sl => (s.hire sl).released.settled) →
      records = paid.map (fun sl => ⟨s.shift.number, s.clock, .hire (((s.hire sl).released.filed .paid).record sl)⟩) →
      (∀ sl, sl ∈ paid → t.hire sl = Hire.cleared) ∧ (∀ sl, sl ∉ paid → t.hire sl = (s.hire sl).restored)
      ∧ t.journal.queue = [] ∧ t.journal.inFlight = none ∧ t.journal.nextSeq = s.journal.nextSeq ∧ t.journal.acked = s.journal.acked
      ∧ t.journal.retired = s.journal.retired ∧ t.journal.state = s.journal.state
      ∧ (s.shift.state ≠ .closing ∨ s.shift.summary = true ∨ paid = [] ∨ (∃ sl, sl ∉ paid ∧ (s.hire sl).stage ≠ .free) →
          t.journal.unfiled = s.journal.unfiled ++ records ∧ t.shift.state = s.shift.state)
      ∧ (∀ driver openTime closeTime, s.shift.state = .closing → s.shift.summary = false → paid ≠ [] →
          (∀ sl, sl ∉ paid → (s.hire sl).stage = .free) → s.shift.driver = some driver → s.shift.openTime = some openTime →
          s.shift.closeTime = some closeTime →
          t.journal.unfiled = s.journal.unfiled ++ records
              ++ [⟨s.shift.number, s.clock, .shift driver openTime closeTime t.shift.counters⟩]
            ∧ t.shift.state = .closed))
  ∧
  (∀ (u : StartUp) (s t : State), (s.journal.steady ∨ (s.journal.queue = [] ∧ ∀ sl, (s.hire sl).released.settled = false)) →
      t = s.startUp true u →
      (s.tariffs.tariffBad u = true → t.tariffs.active = TariffSet.blank ∧ t.tariffs.staging = TariffSet.blank
        ∧ ∀ sl, (s.hire sl).stage ≠ .free → (s.hire sl).stage ≠ .booked → (t.hire sl).unmetered = true)
      ∧ (s.tariffs.configBad u = true → t.tariffs.config = ⟨1000, 120, 90, 50000, false, 64, 64, 6⟩
        ∧ (∀ sl, (t.hire sl).metreRem = (s.hire sl).metreRem % 1000
            ∧ (t.hire sl).metres = min ((s.hire sl).metres + (s.hire sl).metreRem / 1000) 4294967295)
        ∧ t.odoRem = s.odoRem % 1000
        ∧ ((∀ sl, (s.hire sl).released.settled = false) →
            t.journal.low = if s.tariffs.config.lowWater = 64 then s.journal.low else decide (s.journal.free < 64))
        ∧ t.shift.totals = { s.shift.totals with totalMetres := (s.shift.totals.totalMetres + s.odoRem / 1000) % 1000000000 }
        ∧ (s.shift.state ≠ .closed → t.vacantRem = s.vacantRem % 1000
            ∧ (CountersLaw s.shift →
                t.shift.counter .vacantMetres = (s.shift.counter .vacantMetres).add (s.vacantRem / 1000)))))

/-- A power-on that finds the retention memory bad, its mark or check word missing or disagreeing: every slot FREE, the shift CLOSED and
its record at the values of R96, the totalizers from their section or 0 and LOST, the journal's bookkeeping rebuilt, the alarm QUIET with
an empty log, override AUTO, clock UNSET at the start of 2000, count 0, next hire number 1 (R1, R4, R28, R96, R111, R119, R132, R165, R186
to R188, R191). The journal rebuilt from its slots: pages holding a damaged slot are retired, at most eight listed, and more than eight
close writing; the next number is one beyond the greatest found, or 1; the acknowledged number one below the smallest, or 0; nothing is
queued or unfiled (R119). A start-up without retention rebuilds the journal from its slots as the loss left them: the slot being
programmed as the start-up reads it, an interrupted recovery's erased pages empty, every other slot as it was; the RETENTION_LOST record
is handed over when at least one journal slot is free, and takes the writer's slot when that is free; the low mark is worked out afresh
(R119, R131, R191). How the slot reads is an operand (the model's choice, log entries 6 and 18). That the facts a start-up meets are its
operands (log entry 6), that the acknowledged number is 0 where the smallest found is 0 (log entry 48) and that the page in work when a
recovery is cut off reads empty or as it was, never damaged (log entry 53), are the model's choices. -/
def Obligations.StartUpWithoutRetentionStartsAfresh : Prop :=
  (∀ (u : StartUp) (s t : State), (s.closedMark = false ∨ s.checkWord = false ∨ u.retentionGood = false) → t = s.startUp false u →
      exec (.powerOn u) s = .next t
      ∧ (∀ sl, t.hire sl = Hire.cleared) ∧ t.nextHire = 1 ∧ t.vacantRem = 0 ∧ t.odoRem = 0
      ∧ t.shift.state = .closed ∧ t.shift.number = 0 ∧ t.shift.driver = none ∧ t.shift.pooling = false ∧ t.shift.ceiling = 0
      ∧ t.shift.offlineTotal = 0 ∧ t.shift.openTime = none ∧ t.shift.closeTime = none ∧ t.shift.summary = false
      ∧ t.shift.counters = List.replicate 15 ⟨0, false⟩
      ∧ (t.shift.totals, t.shift.totalsStatus) = (match t.shift.totalsSection.load u.totalsGood with
          | some x => (x, .ok)
          | none => (⟨0, 0, 0, 0, 0⟩, .lost))
      ∧ t.alarm = ⟨.quiet, [], true, 0, 0⟩ ∧ t.sign.override = .auto ∧ t.clock = ⟨2000, 1, 1, 6, 0, 0, 0⟩ ∧ t.clockStatus = .unset
      ∧ t.timeBase = 0 ∧ t.power = .running ∧ t.partClear = .idle
      ∧ (∀ p, (t.port p).notices = NoticeKind.powerRestored.mask))
  ∧
  (∀ (st : JournalStore) (draws : Nat), ∃ j, j = rebuiltJournal st draws ∧ j.store = st ∧ j.queue = [] ∧ j.unfiled = []
      ∧ j.retired = (damagedPages st).take 8
      ∧ (∀ p, p ∈ damagedPages st ↔ p < 256 ∧ ∃ i, (i, SlotContent.damaged) ∈ st ∧ i / 16 = p)
      ∧ j.state = (if 8 < (damagedPages st).length then .fault .retiredList else .normal)
      ∧ ((∀ i n r, (i, SlotContent.whole n r) ∉ st) → j.nextSeq = 1 ∧ j.acked = 0)
      ∧ (∀ i n r, (i, SlotContent.whole n r) ∈ st → n < 4294967295 → (∀ i' n' r', (i', SlotContent.whole n' r') ∈ st → n' ≤ n) →
          j.nextSeq = n + 1)
      ∧ (∀ i n r, (i, SlotContent.whole n r) ∈ st → (∀ i' n' r', (i', SlotContent.whole n' r') ∈ st → n ≤ n') → j.acked = n - 1))
  ∧
  (∀ (u : StartUp) (s t : State) (st : JournalStore) (j : Journal), t = s.startUp false u →
      st = storeAfterLoss (s.eraseLost u.erased).journal u.slot → j = rebuiltJournal st s.draws →
      (t.journal.store = st ∧ t.journal.writer = j.writer ∧ t.journal.nextSeq = j.nextSeq ∧ t.journal.acked = j.acked
        ∧ t.journal.retired = j.retired ∧ t.journal.state = j.state ∧ t.journal.unfiled = []
        ∧ t.journal.low = decide (t.journal.free < t.tariffs.config.lowWater)
        ∧ (1 ≤ j.free → j.slotFree j.writer = true → t.journal.queue = [⟨0, ClockTime.first, .retentionLost⟩]
            ∧ t.journal.inFlight = some ⟨j.nextSeq, j.writer⟩)
        ∧ (j.free < 1 → t.journal.queue = [] ∧ t.journal.inFlight = none))
      ∧ (s.partClear ≠ .recovering → (s.journal.inFlight = none ∨ s.journal.queue = []) → st = s.journal.store)
      ∧ (∀ f r rest, s.partClear ≠ .recovering → s.journal.inFlight = some f → s.journal.queue = r :: rest →
        StoreLaw s.journal →
        slotRead st f.place.index = (match u.slot with
            | .untouched => slotRead s.journal.store f.place.index
            | .empty => none
            | .whole => some (.whole f.seq r)
            | .damaged => some .damaged)
          ∧ ∀ i, i ≠ f.place.index → slotRead st i = slotRead s.journal.store i)
      ∧ (∀ i, s.partClear = .recovering → s.journal.inFlight = none →
        slotRead st i = if i / 16 ∈ u.erased then none else slotRead s.journal.store i))

/-! ### Over every command -/

/-- A request its owner refuses changes nothing: whatever the kind, the port and the payload, LOAD and COMPARE blocks apart, a reply whose
code is none of OK, ACCEPTED, LATE and SKIPPED comes with the state as it was (R179). -/
def Obligations.RefusedRequestsChangeNothing : Prop :=
  ∀ (p : PortId) (k : Kind) (pl : List Byte) (s : State) (code : Byte) (items : List Byte) (rest : List (List Byte)),
    k ≠ .load → k ≠ .compare → (checkedOwner p pl k s).2.payloads = (code :: items) :: rest →
    code ≠ Code.ok.byte → code ≠ Code.accepted.byte → code ≠ Code.late.byte → code ≠ Code.skipped.byte →
    (checkedOwner p pl k s).1 = s

/-- The requests that only read, and those on a port's own notices and masks, leave everything but that port as it was; so do the
transfers READ and REPEAT (R6, R112 to R114, R126, R128, R135, R142, R170, R174, R182 to R184, R187), and a READ_HIRE from a port without
the claim on the hire it names (R75). The frames of the other groups: what the requests on hires and payments, on the sign, on the
intercom, on the tariffs and on the alarm, the codec frames and the pulses may touch at all; everything else is as it was. -/
def Obligations.CommandsKeepToTheirOwnState : Prop :=
  (∀ (p : PortId) (tag a b c : Byte) (mask : Word) (n : Nat) (s t : State),
      (∀ i : Instr, i ∈ [.readShift p tag, .latchCounters p tag, .readCounter p tag a, .readTariff p tag a b c, .setClockRead p tag,
        .readJournal p tag a, .readUnfiled p tag, .signOverrideReport p tag, .signTestReport p tag, .readAlarmLog p tag,
        .readIndicators p tag, .ackNotices p tag mask, .setNoticeMask p tag mask, .setStageMask p tag a, .readFrame p n,
        .repeatFrame p n] →
        exec i s = .next t → OnlyPort s t p)
      ∧ ((∀ sl, slotOf a = some sl → (s.hire sl).claimedBy p = false) → exec (.readHire p tag a) s = .next t → OnlyPort s t p))
  ∧
  (∀ (p : PortId) (tag a b : Byte) (ref : BitVec 64) (d : Half) (x y : Word) (f : ResultFields) (pl : List Byte) (mic : Sample) (s t : State),
      (∀ i : Instr, i ∈ [.book p tag a ref d, .cancelBooking p tag a, .suspend p tag a, .resume p tag a, .stopHire p tag a,
          .addExtra p tag a b, .closeUnpaid p tag a, .readHire p tag a, .claim p tag a, .release p tag a,
          .beginPayment p tag a b x y, .paymentResult p tag f, .reverse p tag a b, .postCash p tag a x y, .closeShift p tag] →
        exec i s = .next t →
        t = { s with hires := t.hires, ports := t.ports, sign := t.sign, shift := t.shift, journal := t.journal })
      ∧ (exec (.startHire p tag a b) s = .next t →
          t = { s with hires := t.hires, ports := t.ports, sign := t.sign, nextHire := t.nextHire })
      ∧ (exec (.removeExtra p tag a b) s = .next t →
          t = { s with
            hires := t.hires, ports := t.ports, sign := t.sign, shift := t.shift, journal := t.journal, draws := t.draws })
      ∧ (∀ i : Instr, i ∈ [.signOverride p tag a, .signTestRun p tag, .signClear p tag] → exec i s = .next t →
          t = { s with sign := t.sign, ports := s.ports.put p (t.port p) })
      ∧ (∀ i : Instr, i ∈ [.setTalkMode p tag a, .setVolume p tag a b, .readIntercom p tag, .intercomClear p tag, .postPrompt p tag a,
          .setMonitor p tag a] → exec i s = .next t → t = { s with intercom := t.intercom, ports := s.ports.put p (t.port p) })
      ∧ (∀ i : Instr, i ∈ [.load p tag pl, .compare p tag pl, .activate p tag, .null p tag] → exec i s = .next t →
          t = { s with tariffs := t.tariffs, ports := s.ports.put p (t.port p) })
      ∧ (exec (.alarmStandDown p tag) s = .next t → t = { s with alarm := t.alarm, sign := t.sign, ports := s.ports.put p (t.port p) })
      ∧ (∀ i : Instr, i ∈ [.frontCodecFrame mic, .rearCodecFrame mic, .promptEnd mic, .chimeEnd mic] → exec i s = .next t →
          t = { s with intercom := t.intercom })
      ∧ (∀ i : Instr, i ∈ [.wheelPulse, .totalMetres100m] → exec i s = .next t →
          t = { s with
            hires := t.hires, ports := t.ports, sign := t.sign, shift := t.shift, vacantRem := t.vacantRem, odoRem := t.odoRem }))

/-! ### Laws that every step keeps -/

/-- At most one of VACANT, HIRED and OFF_DUTY has a level above zero: every step keeps it (R137). -/
def Obligations.EveryStepKeepsTheLampLaw : Prop :=
  ∀ s t : State, LampLaw s.sign → step s = .next t → LampLaw t.sign

/-- In PTT and PRIVATE with no prompt playing at most one path has a gain above zero: every step keeps it (R155). -/
def Obligations.EveryStepKeepsTheTalkLaw : Prop :=
  ∀ s t : State, TalkLaw s.intercom → step s = .next t → TalkLaw t.intercom

/-- The offline total never exceeds the ceiling in force: every step keeps it (R84). Every claimed hire is STOPPED and no port holds two
claims: every step keeps it (R72, R74). No hire's approved and pending amounts exceed its total due: every step keeps it (R81). Shift
Accounting keeps its fifteen counters: every step keeps them (R105). -/
def Obligations.EveryStepKeepsTheMoneyLaws : Prop :=
  (∀ s t : State, CeilingLaw s.shift → step s = .next t → CeilingLaw t.shift)
  ∧
  (∀ s t : State, ClaimLaw s.hires → step s = .next t → ClaimLaw t.hires)
  ∧
  (∀ s t : State, BalanceLaw s.hires → step s = .next t → BalanceLaw t.hires)
  ∧
  (∀ s t : State, CountersLaw s.shift → step s = .next t → CountersLaw t.shift)

/-- Every tariff set keeps its eight, thirty-two and eight places (R51). The journal's slots stay in their one order, so that equal stores
are equal data (the model's form of R118, INVENTORY). No enable mask comes to hold a kind its port is not told of (R182). The clock time
is a valid one: every step keeps it so (R187). The alarm log holds at most eight entries, and an ACTIVE alarm has one: every step keeps it
(R165, R167). -/
def Obligations.EveryStepKeepsTheStoredForms : Prop :=
  (∀ s t : State, PlacesLaw s.tariffs → step s = .next t → PlacesLaw t.tariffs)
  ∧
  (∀ s t : State, StoreLaw s.journal → step s = .next t → StoreLaw t.journal)
  ∧
  (∀ s t : State, MaskLaw s.ports → step s = .next t → MaskLaw t.ports)
  ∧
  (∀ s t : State, s.clock.valid = true → step s = .next t → t.clock.valid = true)
  ∧
  (∀ s t : State, AlarmLaw s.alarm → step s = .next t → AlarmLaw t.alarm)
end

