-- ==== Sys2Proof/Laws/State.lean ====
section
/-! SUPPORT. What each base update of the state leaves in each field: all true by `rfl`. -/

namespace Sys2Proof.Machine

/-! ### Tables -/

@[simp] theorem hires_get_put_same (t : HireTable) (sl : SlotId) (h : Hire) : (t.put sl h).get sl = h := by cases sl <;> rfl

theorem hires_get_put_other (t : HireTable) {sl other : SlotId} (h : Hire) (ne : other ≠ sl) : (t.put sl h).get other = t.get other := by
  cases sl <;> cases other <;> first | rfl | exact absurd rfl ne

@[simp] theorem hires_put_put (t : HireTable) (sl : SlotId) (g h : Hire) : (t.put sl g).put sl h = t.put sl h := by cases sl <;> rfl

@[simp] theorem ports_get_put_same (q : Ports) (p : PortId) (x : Port) : (q.put p x).get p = x := by cases p <;> rfl

theorem ports_get_put_other (q : Ports) {p other : PortId} (x : Port) (ne : other ≠ p) : (q.put p x).get other = q.get other := by
  cases p <;> cases other <;> first | rfl | exact absurd rfl ne

@[simp] theorem ports_put_put (q : Ports) (p : PortId) (x y : Port) : (q.put p x).put p y = q.put p y := by cases p <;> rfl

@[simp] theorem hire_putHire_same (s : State) (sl : SlotId) (h : Hire) : (s.putHire sl h).hire sl = h :=
  hires_get_put_same s.hires sl h

@[simp] theorem port_putPort_same (s : State) (p : PortId) (x : Port) : (s.putPort p x).port p = x :=
  ports_get_put_same s.ports p x

/-! ### putHire -/

@[simp] theorem putHire_pending (s : State) (sl : SlotId) (h : Hire) : (s.putHire sl h).pending = s.pending := rfl
@[simp] theorem putHire_power (s : State) (sl : SlotId) (h : Hire) : (s.putHire sl h).power = s.power := rfl
@[simp] theorem putHire_closedMark (s : State) (sl : SlotId) (h : Hire) : (s.putHire sl h).closedMark = s.closedMark := rfl
@[simp] theorem putHire_checkWord (s : State) (sl : SlotId) (h : Hire) : (s.putHire sl h).checkWord = s.checkWord := rfl
@[simp] theorem putHire_pins (s : State) (sl : SlotId) (h : Hire) : (s.putHire sl h).pins = s.pins := rfl
@[simp] theorem putHire_timeBase (s : State) (sl : SlotId) (h : Hire) : (s.putHire sl h).timeBase = s.timeBase := rfl
@[simp] theorem putHire_clock (s : State) (sl : SlotId) (h : Hire) : (s.putHire sl h).clock = s.clock := rfl
@[simp] theorem putHire_clockStatus (s : State) (sl : SlotId) (h : Hire) : (s.putHire sl h).clockStatus = s.clockStatus := rfl
@[simp] theorem putHire_hires (s : State) (sl : SlotId) (h : Hire) : (s.putHire sl h).hires = s.hires.put sl h := rfl
@[simp] theorem putHire_nextHire (s : State) (sl : SlotId) (h : Hire) : (s.putHire sl h).nextHire = s.nextHire := rfl
@[simp] theorem putHire_vacantRem (s : State) (sl : SlotId) (h : Hire) : (s.putHire sl h).vacantRem = s.vacantRem := rfl
@[simp] theorem putHire_odoRem (s : State) (sl : SlotId) (h : Hire) : (s.putHire sl h).odoRem = s.odoRem := rfl
@[simp] theorem putHire_tariffs (s : State) (sl : SlotId) (h : Hire) : (s.putHire sl h).tariffs = s.tariffs := rfl
@[simp] theorem putHire_shift (s : State) (sl : SlotId) (h : Hire) : (s.putHire sl h).shift = s.shift := rfl
@[simp] theorem putHire_journal (s : State) (sl : SlotId) (h : Hire) : (s.putHire sl h).journal = s.journal := rfl
@[simp] theorem putHire_sign (s : State) (sl : SlotId) (h : Hire) : (s.putHire sl h).sign = s.sign := rfl
@[simp] theorem putHire_intercom (s : State) (sl : SlotId) (h : Hire) : (s.putHire sl h).intercom = s.intercom := rfl
@[simp] theorem putHire_alarm (s : State) (sl : SlotId) (h : Hire) : (s.putHire sl h).alarm = s.alarm := rfl
@[simp] theorem putHire_ports (s : State) (sl : SlotId) (h : Hire) : (s.putHire sl h).ports = s.ports := rfl
@[simp] theorem putHire_indicators (s : State) (sl : SlotId) (h : Hire) : (s.putHire sl h).indicators = s.indicators := rfl
@[simp] theorem putHire_partClear (s : State) (sl : SlotId) (h : Hire) : (s.putHire sl h).partClear = s.partClear := rfl
@[simp] theorem putHire_draws (s : State) (sl : SlotId) (h : Hire) : (s.putHire sl h).draws = s.draws := rfl

/-! ### putPort -/

@[simp] theorem putPort_pending (s : State) (p : PortId) (x : Port) : (s.putPort p x).pending = s.pending := rfl
@[simp] theorem putPort_power (s : State) (p : PortId) (x : Port) : (s.putPort p x).power = s.power := rfl
@[simp] theorem putPort_closedMark (s : State) (p : PortId) (x : Port) : (s.putPort p x).closedMark = s.closedMark := rfl
@[simp] theorem putPort_checkWord (s : State) (p : PortId) (x : Port) : (s.putPort p x).checkWord = s.checkWord := rfl
@[simp] theorem putPort_pins (s : State) (p : PortId) (x : Port) : (s.putPort p x).pins = s.pins := rfl
@[simp] theorem putPort_timeBase (s : State) (p : PortId) (x : Port) : (s.putPort p x).timeBase = s.timeBase := rfl
@[simp] theorem putPort_clock (s : State) (p : PortId) (x : Port) : (s.putPort p x).clock = s.clock := rfl
@[simp] theorem putPort_clockStatus (s : State) (p : PortId) (x : Port) : (s.putPort p x).clockStatus = s.clockStatus := rfl
@[simp] theorem putPort_hires (s : State) (p : PortId) (x : Port) : (s.putPort p x).hires = s.hires := rfl
@[simp] theorem putPort_nextHire (s : State) (p : PortId) (x : Port) : (s.putPort p x).nextHire = s.nextHire := rfl
@[simp] theorem putPort_vacantRem (s : State) (p : PortId) (x : Port) : (s.putPort p x).vacantRem = s.vacantRem := rfl
@[simp] theorem putPort_odoRem (s : State) (p : PortId) (x : Port) : (s.putPort p x).odoRem = s.odoRem := rfl
@[simp] theorem putPort_tariffs (s : State) (p : PortId) (x : Port) : (s.putPort p x).tariffs = s.tariffs := rfl
@[simp] theorem putPort_shift (s : State) (p : PortId) (x : Port) : (s.putPort p x).shift = s.shift := rfl
@[simp] theorem putPort_journal (s : State) (p : PortId) (x : Port) : (s.putPort p x).journal = s.journal := rfl
@[simp] theorem putPort_sign (s : State) (p : PortId) (x : Port) : (s.putPort p x).sign = s.sign := rfl
@[simp] theorem putPort_intercom (s : State) (p : PortId) (x : Port) : (s.putPort p x).intercom = s.intercom := rfl
@[simp] theorem putPort_alarm (s : State) (p : PortId) (x : Port) : (s.putPort p x).alarm = s.alarm := rfl
@[simp] theorem putPort_ports (s : State) (p : PortId) (x : Port) : (s.putPort p x).ports = s.ports.put p x := rfl
@[simp] theorem putPort_indicators (s : State) (p : PortId) (x : Port) : (s.putPort p x).indicators = s.indicators := rfl
@[simp] theorem putPort_partClear (s : State) (p : PortId) (x : Port) : (s.putPort p x).partClear = s.partClear := rfl
@[simp] theorem putPort_draws (s : State) (p : PortId) (x : Port) : (s.putPort p x).draws = s.draws := rfl

/-! ### notify -/

@[simp] theorem notify_pending (s : State) (p : PortId) (k : NoticeKind) : (s.notify p k).pending = s.pending := rfl
@[simp] theorem notify_power (s : State) (p : PortId) (k : NoticeKind) : (s.notify p k).power = s.power := rfl
@[simp] theorem notify_closedMark (s : State) (p : PortId) (k : NoticeKind) : (s.notify p k).closedMark = s.closedMark := rfl
@[simp] theorem notify_checkWord (s : State) (p : PortId) (k : NoticeKind) : (s.notify p k).checkWord = s.checkWord := rfl
@[simp] theorem notify_pins (s : State) (p : PortId) (k : NoticeKind) : (s.notify p k).pins = s.pins := rfl
@[simp] theorem notify_timeBase (s : State) (p : PortId) (k : NoticeKind) : (s.notify p k).timeBase = s.timeBase := rfl
@[simp] theorem notify_clock (s : State) (p : PortId) (k : NoticeKind) : (s.notify p k).clock = s.clock := rfl
@[simp] theorem notify_clockStatus (s : State) (p : PortId) (k : NoticeKind) : (s.notify p k).clockStatus = s.clockStatus := rfl
@[simp] theorem notify_hires (s : State) (p : PortId) (k : NoticeKind) : (s.notify p k).hires = s.hires := rfl
@[simp] theorem notify_nextHire (s : State) (p : PortId) (k : NoticeKind) : (s.notify p k).nextHire = s.nextHire := rfl
@[simp] theorem notify_vacantRem (s : State) (p : PortId) (k : NoticeKind) : (s.notify p k).vacantRem = s.vacantRem := rfl
@[simp] theorem notify_odoRem (s : State) (p : PortId) (k : NoticeKind) : (s.notify p k).odoRem = s.odoRem := rfl
@[simp] theorem notify_tariffs (s : State) (p : PortId) (k : NoticeKind) : (s.notify p k).tariffs = s.tariffs := rfl
@[simp] theorem notify_shift (s : State) (p : PortId) (k : NoticeKind) : (s.notify p k).shift = s.shift := rfl
@[simp] theorem notify_journal (s : State) (p : PortId) (k : NoticeKind) : (s.notify p k).journal = s.journal := rfl
@[simp] theorem notify_sign (s : State) (p : PortId) (k : NoticeKind) : (s.notify p k).sign = s.sign := rfl
@[simp] theorem notify_intercom (s : State) (p : PortId) (k : NoticeKind) : (s.notify p k).intercom = s.intercom := rfl
@[simp] theorem notify_alarm (s : State) (p : PortId) (k : NoticeKind) : (s.notify p k).alarm = s.alarm := rfl
@[simp] theorem notify_ports (s : State) (p : PortId) (k : NoticeKind) : (s.notify p k).ports = s.ports.put p ((s.port p).add k) := rfl
@[simp] theorem notify_indicators (s : State) (p : PortId) (k : NoticeKind) : (s.notify p k).indicators = s.indicators := rfl
@[simp] theorem notify_partClear (s : State) (p : PortId) (k : NoticeKind) : (s.notify p k).partClear = s.partClear := rfl
@[simp] theorem notify_draws (s : State) (p : PortId) (k : NoticeKind) : (s.notify p k).draws = s.draws := rfl

/-! ### answer -/

@[simp] theorem answer_pending (s : State) (p : PortId) (k tag : Byte) (r : Reply) : (s.answer p k tag r).pending = s.pending := rfl
@[simp] theorem answer_power (s : State) (p : PortId) (k tag : Byte) (r : Reply) : (s.answer p k tag r).power = s.power := rfl
@[simp] theorem answer_closedMark (s : State) (p : PortId) (k tag : Byte) (r : Reply) : (s.answer p k tag r).closedMark = s.closedMark := rfl
@[simp] theorem answer_checkWord (s : State) (p : PortId) (k tag : Byte) (r : Reply) : (s.answer p k tag r).checkWord = s.checkWord := rfl
@[simp] theorem answer_pins (s : State) (p : PortId) (k tag : Byte) (r : Reply) : (s.answer p k tag r).pins = s.pins := rfl
@[simp] theorem answer_timeBase (s : State) (p : PortId) (k tag : Byte) (r : Reply) : (s.answer p k tag r).timeBase = s.timeBase := rfl
@[simp] theorem answer_clock (s : State) (p : PortId) (k tag : Byte) (r : Reply) : (s.answer p k tag r).clock = s.clock := rfl
@[simp] theorem answer_clockStatus (s : State) (p : PortId) (k tag : Byte) (r : Reply) : (s.answer p k tag r).clockStatus = s.clockStatus := rfl
@[simp] theorem answer_hires (s : State) (p : PortId) (k tag : Byte) (r : Reply) : (s.answer p k tag r).hires = s.hires := rfl
@[simp] theorem answer_nextHire (s : State) (p : PortId) (k tag : Byte) (r : Reply) : (s.answer p k tag r).nextHire = s.nextHire := rfl
@[simp] theorem answer_vacantRem (s : State) (p : PortId) (k tag : Byte) (r : Reply) : (s.answer p k tag r).vacantRem = s.vacantRem := rfl
@[simp] theorem answer_odoRem (s : State) (p : PortId) (k tag : Byte) (r : Reply) : (s.answer p k tag r).odoRem = s.odoRem := rfl
@[simp] theorem answer_tariffs (s : State) (p : PortId) (k tag : Byte) (r : Reply) : (s.answer p k tag r).tariffs = s.tariffs := rfl
@[simp] theorem answer_shift (s : State) (p : PortId) (k tag : Byte) (r : Reply) : (s.answer p k tag r).shift = s.shift := rfl
@[simp] theorem answer_journal (s : State) (p : PortId) (k tag : Byte) (r : Reply) : (s.answer p k tag r).journal = s.journal := rfl
@[simp] theorem answer_sign (s : State) (p : PortId) (k tag : Byte) (r : Reply) : (s.answer p k tag r).sign = s.sign := rfl
@[simp] theorem answer_intercom (s : State) (p : PortId) (k tag : Byte) (r : Reply) : (s.answer p k tag r).intercom = s.intercom := rfl
@[simp] theorem answer_alarm (s : State) (p : PortId) (k tag : Byte) (r : Reply) : (s.answer p k tag r).alarm = s.alarm := rfl
@[simp] theorem answer_ports (s : State) (p : PortId) (k tag : Byte) (r : Reply) : (s.answer p k tag r).ports = s.ports.put p ((s.port p).answer k tag r) := rfl
@[simp] theorem answer_indicators (s : State) (p : PortId) (k tag : Byte) (r : Reply) : (s.answer p k tag r).indicators = s.indicators := rfl
@[simp] theorem answer_partClear (s : State) (p : PortId) (k tag : Byte) (r : Reply) : (s.answer p k tag r).partClear = s.partClear := rfl
@[simp] theorem answer_draws (s : State) (p : PortId) (k tag : Byte) (r : Reply) : (s.answer p k tag r).draws = s.draws := rfl

/-! ### refuse -/

@[simp] theorem refuse_pending (s : State) (p : PortId) (tag : Byte) (c : Code) : (s.refuse p tag c).pending = s.pending := rfl
@[simp] theorem refuse_power (s : State) (p : PortId) (tag : Byte) (c : Code) : (s.refuse p tag c).power = s.power := rfl
@[simp] theorem refuse_closedMark (s : State) (p : PortId) (tag : Byte) (c : Code) : (s.refuse p tag c).closedMark = s.closedMark := rfl
@[simp] theorem refuse_checkWord (s : State) (p : PortId) (tag : Byte) (c : Code) : (s.refuse p tag c).checkWord = s.checkWord := rfl
@[simp] theorem refuse_pins (s : State) (p : PortId) (tag : Byte) (c : Code) : (s.refuse p tag c).pins = s.pins := rfl
@[simp] theorem refuse_timeBase (s : State) (p : PortId) (tag : Byte) (c : Code) : (s.refuse p tag c).timeBase = s.timeBase := rfl
@[simp] theorem refuse_clock (s : State) (p : PortId) (tag : Byte) (c : Code) : (s.refuse p tag c).clock = s.clock := rfl
@[simp] theorem refuse_clockStatus (s : State) (p : PortId) (tag : Byte) (c : Code) : (s.refuse p tag c).clockStatus = s.clockStatus := rfl
@[simp] theorem refuse_hires (s : State) (p : PortId) (tag : Byte) (c : Code) : (s.refuse p tag c).hires = s.hires := rfl
@[simp] theorem refuse_nextHire (s : State) (p : PortId) (tag : Byte) (c : Code) : (s.refuse p tag c).nextHire = s.nextHire := rfl
@[simp] theorem refuse_vacantRem (s : State) (p : PortId) (tag : Byte) (c : Code) : (s.refuse p tag c).vacantRem = s.vacantRem := rfl
@[simp] theorem refuse_odoRem (s : State) (p : PortId) (tag : Byte) (c : Code) : (s.refuse p tag c).odoRem = s.odoRem := rfl
@[simp] theorem refuse_tariffs (s : State) (p : PortId) (tag : Byte) (c : Code) : (s.refuse p tag c).tariffs = s.tariffs := rfl
@[simp] theorem refuse_shift (s : State) (p : PortId) (tag : Byte) (c : Code) : (s.refuse p tag c).shift = s.shift := rfl
@[simp] theorem refuse_journal (s : State) (p : PortId) (tag : Byte) (c : Code) : (s.refuse p tag c).journal = s.journal := rfl
@[simp] theorem refuse_sign (s : State) (p : PortId) (tag : Byte) (c : Code) : (s.refuse p tag c).sign = s.sign := rfl
@[simp] theorem refuse_intercom (s : State) (p : PortId) (tag : Byte) (c : Code) : (s.refuse p tag c).intercom = s.intercom := rfl
@[simp] theorem refuse_alarm (s : State) (p : PortId) (tag : Byte) (c : Code) : (s.refuse p tag c).alarm = s.alarm := rfl
@[simp] theorem refuse_ports (s : State) (p : PortId) (tag : Byte) (c : Code) : (s.refuse p tag c).ports = s.ports.put p ((s.port p).refuse tag c) := rfl
@[simp] theorem refuse_indicators (s : State) (p : PortId) (tag : Byte) (c : Code) : (s.refuse p tag c).indicators = s.indicators := rfl
@[simp] theorem refuse_partClear (s : State) (p : PortId) (tag : Byte) (c : Code) : (s.refuse p tag c).partClear = s.partClear := rfl
@[simp] theorem refuse_draws (s : State) (p : PortId) (tag : Byte) (c : Code) : (s.refuse p tag c).draws = s.draws := rfl

/-! ### closeChain -/

@[simp] theorem closeChain_pending (s : State) : (s.closeChain).pending = s.pending := rfl
@[simp] theorem closeChain_power (s : State) : (s.closeChain).power = s.power := rfl
@[simp] theorem closeChain_closedMark (s : State) : (s.closeChain).closedMark = s.closedMark := rfl
@[simp] theorem closeChain_checkWord (s : State) : (s.closeChain).checkWord = s.checkWord := rfl
@[simp] theorem closeChain_pins (s : State) : (s.closeChain).pins = s.pins := rfl
@[simp] theorem closeChain_timeBase (s : State) : (s.closeChain).timeBase = s.timeBase := rfl
@[simp] theorem closeChain_clock (s : State) : (s.closeChain).clock = s.clock := rfl
@[simp] theorem closeChain_clockStatus (s : State) : (s.closeChain).clockStatus = s.clockStatus := rfl
@[simp] theorem closeChain_hires (s : State) : (s.closeChain).hires = s.hires := rfl
@[simp] theorem closeChain_nextHire (s : State) : (s.closeChain).nextHire = s.nextHire := rfl
@[simp] theorem closeChain_vacantRem (s : State) : (s.closeChain).vacantRem = s.vacantRem := rfl
@[simp] theorem closeChain_odoRem (s : State) : (s.closeChain).odoRem = s.odoRem := rfl
@[simp] theorem closeChain_tariffs (s : State) : (s.closeChain).tariffs = { s.tariffs with chain := Chain.cleared } := rfl
@[simp] theorem closeChain_shift (s : State) : (s.closeChain).shift = s.shift := rfl
@[simp] theorem closeChain_journal (s : State) : (s.closeChain).journal = s.journal := rfl
@[simp] theorem closeChain_sign (s : State) : (s.closeChain).sign = s.sign := rfl
@[simp] theorem closeChain_intercom (s : State) : (s.closeChain).intercom = s.intercom := rfl
@[simp] theorem closeChain_alarm (s : State) : (s.closeChain).alarm = s.alarm := rfl
@[simp] theorem closeChain_ports (s : State) : (s.closeChain).ports = s.ports := rfl
@[simp] theorem closeChain_indicators (s : State) : (s.closeChain).indicators = s.indicators := rfl
@[simp] theorem closeChain_partClear (s : State) : (s.closeChain).partClear = s.partClear := rfl
@[simp] theorem closeChain_draws (s : State) : (s.closeChain).draws = s.draws := rfl

/-! ### count -/

@[simp] theorem count_pending (s : State) (id : CounterId) (n : Nat) : (s.count id n).pending = s.pending := rfl
@[simp] theorem count_power (s : State) (id : CounterId) (n : Nat) : (s.count id n).power = s.power := rfl
@[simp] theorem count_closedMark (s : State) (id : CounterId) (n : Nat) : (s.count id n).closedMark = s.closedMark := rfl
@[simp] theorem count_checkWord (s : State) (id : CounterId) (n : Nat) : (s.count id n).checkWord = s.checkWord := rfl
@[simp] theorem count_pins (s : State) (id : CounterId) (n : Nat) : (s.count id n).pins = s.pins := rfl
@[simp] theorem count_timeBase (s : State) (id : CounterId) (n : Nat) : (s.count id n).timeBase = s.timeBase := rfl
@[simp] theorem count_clock (s : State) (id : CounterId) (n : Nat) : (s.count id n).clock = s.clock := rfl
@[simp] theorem count_clockStatus (s : State) (id : CounterId) (n : Nat) : (s.count id n).clockStatus = s.clockStatus := rfl
@[simp] theorem count_hires (s : State) (id : CounterId) (n : Nat) : (s.count id n).hires = s.hires := rfl
@[simp] theorem count_nextHire (s : State) (id : CounterId) (n : Nat) : (s.count id n).nextHire = s.nextHire := rfl
@[simp] theorem count_vacantRem (s : State) (id : CounterId) (n : Nat) : (s.count id n).vacantRem = s.vacantRem := rfl
@[simp] theorem count_odoRem (s : State) (id : CounterId) (n : Nat) : (s.count id n).odoRem = s.odoRem := rfl
@[simp] theorem count_tariffs (s : State) (id : CounterId) (n : Nat) : (s.count id n).tariffs = s.tariffs := rfl
@[simp] theorem count_shift (s : State) (id : CounterId) (n : Nat) : (s.count id n).shift = s.shift.count id n := rfl
@[simp] theorem count_journal (s : State) (id : CounterId) (n : Nat) : (s.count id n).journal = s.journal := rfl
@[simp] theorem count_sign (s : State) (id : CounterId) (n : Nat) : (s.count id n).sign = s.sign := rfl
@[simp] theorem count_intercom (s : State) (id : CounterId) (n : Nat) : (s.count id n).intercom = s.intercom := rfl
@[simp] theorem count_alarm (s : State) (id : CounterId) (n : Nat) : (s.count id n).alarm = s.alarm := rfl
@[simp] theorem count_ports (s : State) (id : CounterId) (n : Nat) : (s.count id n).ports = s.ports := rfl
@[simp] theorem count_indicators (s : State) (id : CounterId) (n : Nat) : (s.count id n).indicators = s.indicators := rfl
@[simp] theorem count_partClear (s : State) (id : CounterId) (n : Nat) : (s.count id n).partClear = s.partClear := rfl
@[simp] theorem count_draws (s : State) (id : CounterId) (n : Nat) : (s.count id n).draws = s.draws := rfl

/-! ### setOffline -/

@[simp] theorem setOffline_pending (s : State) (n : Nat) : (s.setOffline n).pending = s.pending := rfl
@[simp] theorem setOffline_power (s : State) (n : Nat) : (s.setOffline n).power = s.power := rfl
@[simp] theorem setOffline_closedMark (s : State) (n : Nat) : (s.setOffline n).closedMark = s.closedMark := rfl
@[simp] theorem setOffline_checkWord (s : State) (n : Nat) : (s.setOffline n).checkWord = s.checkWord := rfl
@[simp] theorem setOffline_pins (s : State) (n : Nat) : (s.setOffline n).pins = s.pins := rfl
@[simp] theorem setOffline_timeBase (s : State) (n : Nat) : (s.setOffline n).timeBase = s.timeBase := rfl
@[simp] theorem setOffline_clock (s : State) (n : Nat) : (s.setOffline n).clock = s.clock := rfl
@[simp] theorem setOffline_clockStatus (s : State) (n : Nat) : (s.setOffline n).clockStatus = s.clockStatus := rfl
@[simp] theorem setOffline_hires (s : State) (n : Nat) : (s.setOffline n).hires = s.hires := rfl
@[simp] theorem setOffline_nextHire (s : State) (n : Nat) : (s.setOffline n).nextHire = s.nextHire := rfl
@[simp] theorem setOffline_vacantRem (s : State) (n : Nat) : (s.setOffline n).vacantRem = s.vacantRem := rfl
@[simp] theorem setOffline_odoRem (s : State) (n : Nat) : (s.setOffline n).odoRem = s.odoRem := rfl
@[simp] theorem setOffline_tariffs (s : State) (n : Nat) : (s.setOffline n).tariffs = s.tariffs := rfl
@[simp] theorem setOffline_shift (s : State) (n : Nat) : (s.setOffline n).shift = { s.shift with offlineTotal := n } := rfl
@[simp] theorem setOffline_journal (s : State) (n : Nat) : (s.setOffline n).journal = s.journal := rfl
@[simp] theorem setOffline_sign (s : State) (n : Nat) : (s.setOffline n).sign = s.sign := rfl
@[simp] theorem setOffline_intercom (s : State) (n : Nat) : (s.setOffline n).intercom = s.intercom := rfl
@[simp] theorem setOffline_alarm (s : State) (n : Nat) : (s.setOffline n).alarm = s.alarm := rfl
@[simp] theorem setOffline_ports (s : State) (n : Nat) : (s.setOffline n).ports = s.ports := rfl
@[simp] theorem setOffline_indicators (s : State) (n : Nat) : (s.setOffline n).indicators = s.indicators := rfl
@[simp] theorem setOffline_partClear (s : State) (n : Nat) : (s.setOffline n).partClear = s.partClear := rfl
@[simp] theorem setOffline_draws (s : State) (n : Nat) : (s.setOffline n).draws = s.draws := rfl

/-! ### setReceive -/

@[simp] theorem setReceive_pending (s : State) (p : PortId) (r : Option (List Byte)) : (s.setReceive p r).pending = s.pending := rfl
@[simp] theorem setReceive_power (s : State) (p : PortId) (r : Option (List Byte)) : (s.setReceive p r).power = s.power := rfl
@[simp] theorem setReceive_closedMark (s : State) (p : PortId) (r : Option (List Byte)) : (s.setReceive p r).closedMark = s.closedMark := rfl
@[simp] theorem setReceive_checkWord (s : State) (p : PortId) (r : Option (List Byte)) : (s.setReceive p r).checkWord = s.checkWord := rfl
@[simp] theorem setReceive_pins (s : State) (p : PortId) (r : Option (List Byte)) : (s.setReceive p r).pins = s.pins := rfl
@[simp] theorem setReceive_timeBase (s : State) (p : PortId) (r : Option (List Byte)) : (s.setReceive p r).timeBase = s.timeBase := rfl
@[simp] theorem setReceive_clock (s : State) (p : PortId) (r : Option (List Byte)) : (s.setReceive p r).clock = s.clock := rfl
@[simp] theorem setReceive_clockStatus (s : State) (p : PortId) (r : Option (List Byte)) : (s.setReceive p r).clockStatus = s.clockStatus := rfl
@[simp] theorem setReceive_hires (s : State) (p : PortId) (r : Option (List Byte)) : (s.setReceive p r).hires = s.hires := rfl
@[simp] theorem setReceive_nextHire (s : State) (p : PortId) (r : Option (List Byte)) : (s.setReceive p r).nextHire = s.nextHire := rfl
@[simp] theorem setReceive_vacantRem (s : State) (p : PortId) (r : Option (List Byte)) : (s.setReceive p r).vacantRem = s.vacantRem := rfl
@[simp] theorem setReceive_odoRem (s : State) (p : PortId) (r : Option (List Byte)) : (s.setReceive p r).odoRem = s.odoRem := rfl
@[simp] theorem setReceive_tariffs (s : State) (p : PortId) (r : Option (List Byte)) : (s.setReceive p r).tariffs = s.tariffs := rfl
@[simp] theorem setReceive_shift (s : State) (p : PortId) (r : Option (List Byte)) : (s.setReceive p r).shift = s.shift := rfl
@[simp] theorem setReceive_journal (s : State) (p : PortId) (r : Option (List Byte)) : (s.setReceive p r).journal = s.journal := rfl
@[simp] theorem setReceive_sign (s : State) (p : PortId) (r : Option (List Byte)) : (s.setReceive p r).sign = s.sign := rfl
@[simp] theorem setReceive_intercom (s : State) (p : PortId) (r : Option (List Byte)) : (s.setReceive p r).intercom = s.intercom := rfl
@[simp] theorem setReceive_alarm (s : State) (p : PortId) (r : Option (List Byte)) : (s.setReceive p r).alarm = s.alarm := rfl
@[simp] theorem setReceive_ports (s : State) (p : PortId) (r : Option (List Byte)) : (s.setReceive p r).ports = s.ports.put p { s.port p with receive := r } := rfl
@[simp] theorem setReceive_indicators (s : State) (p : PortId) (r : Option (List Byte)) : (s.setReceive p r).indicators = s.indicators := rfl
@[simp] theorem setReceive_partClear (s : State) (p : PortId) (r : Option (List Byte)) : (s.setReceive p r).partClear = s.partClear := rfl
@[simp] theorem setReceive_draws (s : State) (p : PortId) (r : Option (List Byte)) : (s.setReceive p r).draws = s.draws := rfl

/-! ### sampleSeal -/

@[simp] theorem sampleSeal_pending (s : State) (b : Bool) : (s.sampleSeal b).pending = s.pending := rfl
@[simp] theorem sampleSeal_power (s : State) (b : Bool) : (s.sampleSeal b).power = s.power := rfl
@[simp] theorem sampleSeal_closedMark (s : State) (b : Bool) : (s.sampleSeal b).closedMark = s.closedMark := rfl
@[simp] theorem sampleSeal_checkWord (s : State) (b : Bool) : (s.sampleSeal b).checkWord = s.checkWord := rfl
@[simp] theorem sampleSeal_pins (s : State) (b : Bool) : (s.sampleSeal b).pins = { s.pins with sealed := b } := rfl
@[simp] theorem sampleSeal_timeBase (s : State) (b : Bool) : (s.sampleSeal b).timeBase = s.timeBase := rfl
@[simp] theorem sampleSeal_clock (s : State) (b : Bool) : (s.sampleSeal b).clock = s.clock := rfl
@[simp] theorem sampleSeal_clockStatus (s : State) (b : Bool) : (s.sampleSeal b).clockStatus = s.clockStatus := rfl
@[simp] theorem sampleSeal_hires (s : State) (b : Bool) : (s.sampleSeal b).hires = s.hires := rfl
@[simp] theorem sampleSeal_nextHire (s : State) (b : Bool) : (s.sampleSeal b).nextHire = s.nextHire := rfl
@[simp] theorem sampleSeal_vacantRem (s : State) (b : Bool) : (s.sampleSeal b).vacantRem = s.vacantRem := rfl
@[simp] theorem sampleSeal_odoRem (s : State) (b : Bool) : (s.sampleSeal b).odoRem = s.odoRem := rfl
@[simp] theorem sampleSeal_tariffs (s : State) (b : Bool) : (s.sampleSeal b).tariffs = s.tariffs := rfl
@[simp] theorem sampleSeal_shift (s : State) (b : Bool) : (s.sampleSeal b).shift = s.shift := rfl
@[simp] theorem sampleSeal_journal (s : State) (b : Bool) : (s.sampleSeal b).journal = s.journal := rfl
@[simp] theorem sampleSeal_sign (s : State) (b : Bool) : (s.sampleSeal b).sign = s.sign := rfl
@[simp] theorem sampleSeal_intercom (s : State) (b : Bool) : (s.sampleSeal b).intercom = s.intercom := rfl
@[simp] theorem sampleSeal_alarm (s : State) (b : Bool) : (s.sampleSeal b).alarm = s.alarm := rfl
@[simp] theorem sampleSeal_ports (s : State) (b : Bool) : (s.sampleSeal b).ports = s.ports := rfl
@[simp] theorem sampleSeal_indicators (s : State) (b : Bool) : (s.sampleSeal b).indicators = s.indicators := rfl
@[simp] theorem sampleSeal_partClear (s : State) (b : Bool) : (s.sampleSeal b).partClear = s.partClear := rfl
@[simp] theorem sampleSeal_draws (s : State) (b : Bool) : (s.sampleSeal b).draws = s.draws := rfl

end Sys2Proof.Machine
end

