-- ==== Sys2Proof/Laws/Closed.lean ====
section
/-! SUPPORT. What every operation of hires, settlement, shift and filing keeps, said once for any predicate: `Filed P` says that P does
not look at the hire table, the ports, the shift's counters and dates, or the journal's bookkeeping beside its store, and stands a fresh
derivation of the lamp target. Each shared operation then keeps P. -/

namespace Sys2Proof.Machine

@[simp] theorem count_offlineTotal (x : ShiftAccounting) (id : CounterId) (n : Nat) :
    (x.count id n).offlineTotal = x.offlineTotal := rfl

@[simp] theorem count_ceiling (x : ShiftAccounting) (id : CounterId) (n : Nat) : (x.count id n).ceiling = x.ceiling := rfl

theorem fileHire_offlineTotal (x : ShiftAccounting) (h : Hire) : (x.fileHire h).offlineTotal = x.offlineTotal := by
  simp [ShiftAccounting.fileHire, ShiftAccounting.addFiled]

theorem fileHire_ceiling (x : ShiftAccounting) (h : Hire) : (x.fileHire h).ceiling = x.ceiling := by
  simp [ShiftAccounting.fileHire, ShiftAccounting.addFiled]

/-- A predicate that the work of hires and filings cannot disturb. -/
structure Filed (P : State → Prop) : Prop where
  hires : ∀ (s : State) (x : HireTable), P s → P { s with hires := x }
  ports : ∀ (s : State) (x : Ports), P s → P { s with ports := x }
  shift : ∀ (s : State) (x : ShiftAccounting), x.offlineTotal = s.shift.offlineTotal → x.ceiling = s.shift.ceiling → P s →
    P { s with shift := x }
  journal : ∀ (s : State) (x : Journal), x.store = s.journal.store → P s → P { s with journal := x }
  derive : ∀ s : State, P s → P s.rederive

namespace Filed

variable {P : State → Prop} (c : Filed P)
include c

theorem putHire {s : State} (sl : SlotId) (h : Hire) (hs : P s) : P (s.putHire sl h) := c.hires s _ hs

theorem putPort {s : State} (p : PortId) (x : Port) (hs : P s) : P (s.putPort p x) := c.ports s _ hs

theorem notify {s : State} (p : PortId) (k : NoticeKind) (hs : P s) : P (s.notify p k) := c.ports s _ hs

theorem notifyConsoleFleet {s : State} (k : NoticeKind) (hs : P s) : P (s.notifyConsoleFleet k) :=
  c.notify _ _ (c.notify _ _ hs)

theorem notifyAll {s : State} (k : NoticeKind) (hs : P s) : P (s.notifyAll k) :=
  c.notify _ _ (c.notify _ _ (c.notify _ _ hs))

theorem answer {s : State} (p : PortId) (k tag : Byte) (r : Reply) (hs : P s) : P (s.answer p k tag r) := c.ports s _ hs

theorem refuse {s : State} (p : PortId) (tag : Byte) (code : Code) (hs : P s) : P (s.refuse p tag code) := c.ports s _ hs

theorem count {s : State} (id : CounterId) (n : Nat) (hs : P s) : P (s.count id n) := c.shift s _ rfl rfl hs

theorem askTotals {s : State} (hs : P s) : P s.askTotals := by
  refine c.shift s _ ?_ ?_ hs <;> (unfold ShiftAccounting.askTotals; split <;> rfl)

theorem enterStage {s : State} (sl : SlotId) (h : Hire) (hs : P s) : P (s.enterStage sl h) :=
  c.derive _ (c.ports _ _ (c.putHire sl h hs))

theorem updateLow {s : State} (hs : P s) : P s.updateLow := by
  unfold State.updateLow
  dsimp only
  split
  · exact c.notifyConsoleFleet _ (c.journal s _ rfl hs)
  · exact c.journal s _ rfl hs

theorem handOver {s : State} (b : RecordBody) (hs : P s) : P (s.handOver b) := by
  unfold State.handOver
  split
  · exact c.updateLow (c.journal s _ rfl hs)
  · exact hs

theorem beginSummary {s : State} (hs : P s) : P s.beginSummary := by
  unfold State.beginSummary
  split
  · exact c.handOver _ (c.shift s _ rfl rfl hs)
  · exact hs

theorem completeHire {s : State} (sl : SlotId) (hs : P s) : P (s.completeHire sl) := by
  have h1 : P { s with shift := s.shift.fileHire (s.hire sl) } :=
    c.shift s _ (fileHire_offlineTotal _ _) (fileHire_ceiling _ _) hs
  exact c.beginSummary (c.askTotals (c.enterStage sl Hire.cleared h1))

theorem completeShift {s : State} (hs : P s) : P s.completeShift :=
  c.askTotals (c.derive _ (c.notifyAll _ (c.shift s _ rfl rfl hs)))

theorem complete {s : State} (b : RecordBody) (hs : P s) : P (s.complete b) := by
  unfold State.complete
  split <;> first | exact c.completeHire _ hs | exact c.completeShift hs | exact hs

theorem noSlot {s : State} (r : JournalRecord) (rest : List JournalRecord) (hs : P s) : P (s.noSlot r rest) := by
  unfold State.noSlot
  dsimp only
  split
  · exact c.complete _ (c.updateLow (c.journal s _ rfl hs))
  · exact c.updateLow (c.journal s _ rfl hs)

theorem beginFiling (n : Nat) : ∀ {s : State}, P s → P (s.beginFiling n) := by
  induction n with
  | zero => intro s hs; exact hs
  | succ n ih =>
    intro s hs
    unfold State.beginFiling
    split
    · split
      · exact c.journal s _ rfl hs
      · exact ih (c.noSlot _ _ hs)
    · exact hs

theorem fileOn {s : State} (hs : P s) : P s.fileOn := c.beginFiling _ hs

theorem enterFiling {s : State} (sl : SlotId) (o : HireOutcome) (hs : P s) : P (s.enterFiling sl o) :=
  c.enterStage sl _ (c.handOver _ (c.putHire sl _ hs))

theorem settle {s : State} (sl : SlotId) (hs : P s) : P (s.settle sl) := by
  unfold State.settle
  split
  · exact c.enterFiling _ _ hs
  · exact hs

theorem settleAndFile {s : State} (sl : SlotId) (hs : P s) : P (s.settleAndFile sl) := by
  unfold State.settleAndFile
  split
  · exact c.fileOn (c.enterFiling _ _ hs)
  · exact hs

theorem renew {s : State} (p : PortId) (sl : SlotId) (hs : P s) : P (s.renew p sl) := by
  unfold State.renew
  split
  · exact c.putHire _ _ hs
  · exact hs

theorem lateApproval {s : State} (sl : SlotId) (n : Nat) (m : PayMethod) (a t : Nat) (r : BitVec 96) (hs : P s) :
    P (s.lateApproval sl n m a t r) := by
  unfold State.lateApproval
  dsimp only
  split
  · exact c.fileOn (c.notify _ _ (c.handOver _ (c.count _ _ hs)))
  · exact c.fileOn (c.notify _ _ (c.count _ _ hs))

theorem expirePayments {s : State} (sl : SlotId) (hs : P s) : P (s.expirePayments sl) := by
  unfold State.expirePayments
  dsimp only
  split
  · split
    · exact c.settle _ (c.notify _ _ (c.putHire _ _ hs))
    · exact c.settle _ (c.putHire _ _ hs)
  · exact hs

theorem expireClaim {s : State} (sl : SlotId) (hs : P s) : P (s.expireClaim sl) := by
  unfold State.expireClaim
  dsimp only
  split
  · split
    · exact c.settle _ (c.notify _ _ (c.notify _ _ (c.putHire _ _ hs)))
    · exact hs
  · exact hs

theorem expireSlot {s : State} (sl : SlotId) (hs : P s) : P (s.expireSlot sl) := c.expireClaim sl (c.expirePayments sl hs)

theorem expireBooking {s : State} (sl : SlotId) (hs : P s) : P (s.expireBooking sl) := by
  unfold State.expireBooking
  split
  · exact c.notifyConsoleFleet _ (c.enterStage _ _ hs)
  · exact hs

theorem writeHire {s : State} (sl : SlotId) (h : Hire) (hs : P s) : P (s.writeHire sl h) := by
  unfold State.writeHire
  split
  · exact c.putHire _ _ hs
  · exact c.enterStage _ _ hs

theorem eachHire {s : State} (f : Hire → Hire) (hs : P s) : P (s.eachHire f) :=
  c.writeHire _ _ (c.writeHire _ _ (c.writeHire _ _ hs))

theorem fareWork {s : State} (hs : P s) : P s.fareWork :=
  c.fileOn (c.expireSlot _ (c.expireSlot _ (c.expireSlot _
    (c.expireBooking _ (c.expireBooking _ (c.expireBooking _ (c.eachHire _ hs)))))))

theorem emptyBooked {s : State} (sl : SlotId) (hs : P s) : P (s.emptyBooked sl) := by
  unfold State.emptyBooked
  split
  · exact c.enterStage _ _ hs
  · exact hs

theorem closeShift {s : State} (hs : P s) : P s.closeShift :=
  c.fileOn (c.beginSummary (c.derive _ (c.emptyBooked _ (c.emptyBooked _ (c.emptyBooked _ (c.shift s _ rfl rfl hs))))))

/-- Admission of a request keeps what its owner keeps. -/
theorem admitRequest {s : State} {owner : Owner} (p : PortId) (k tag : Byte) (offered : Bool) (work : ∀ s, P s → P (owner s).1) (hs : P s) :
    P (Machine.admitRequest p k tag offered owner s) := by
  unfold Machine.admitRequest
  split
  · exact hs
  · exact c.refuse _ _ _ hs
  · split
    · exact c.refuse _ _ _ hs
    · split
      · exact c.answer _ _ _ _ (work s hs)
      · exact c.answer _ _ _ _ hs

end Filed

/-! ### Owners -/

/-- A table of checks before a work keeps what the work keeps. -/
theorem checked_keeps {P : State → Prop} {work : Owner} {s : State} (checks : List (Bool × Code)) (h : P s → P (work s).1) (hs : P s) :
    P (checked checks work s).1 := by
  unfold checked
  split
  · exact hs
  · exact h hs

/-- A request that names a slot keeps what its work keeps. -/
theorem withSlot_keeps {P : State → Prop} {work : SlotId → Owner} {s : State} (b : Byte) (h : ∀ sl, P s → P (work sl s).1) (hs : P s) :
    P (withSlot b work s).1 := by
  unfold withSlot
  cases slotOf b with
  | none => exact hs
  | some sl => exact h sl hs

end Sys2Proof.Machine
end

