-- ==== Sys2Proof/Laws/Reach.lean ====
section
/-! SUPPORT. How far each shared operation reaches, each said once: `beyondStage` is the state without what a change of stage may
touch (hire table, ports, sign), `beyondFiling` without what a filing may touch (those, the shift and the journal). An operation that
keeps one of them leaves every field outside it as it was. -/

namespace Sys2Proof.Machine

/-- The state with the hire table, the ports and the sign blotted out. -/
def State.beyondStage (s : State) : State :=
  { s with hires := State.reset.hires, ports := State.reset.ports, sign := State.reset.sign }

/-- The state with the hire table, the ports, the sign, the shift and the journal blotted out. -/
def State.beyondFiling (s : State) : State :=
  { s.beyondStage with shift := State.reset.shift, journal := State.reset.journal }

/-- What is kept beyond a change of stage is kept beyond a filing. -/
theorem beyondFiling_of_beyondStage {s t : State} (h : t.beyondStage = s.beyondStage) : t.beyondFiling = s.beyondFiling := by
  unfold State.beyondFiling
  rw [h]

/-! ### Changes of stage -/

@[simp] theorem putHire_beyondStage (s : State) (sl : SlotId) (h : Hire) : (s.putHire sl h).beyondStage = s.beyondStage := rfl

@[simp] theorem putPort_beyondStage (s : State) (p : PortId) (x : Port) : (s.putPort p x).beyondStage = s.beyondStage := rfl

@[simp] theorem notify_beyondStage (s : State) (p : PortId) (k : NoticeKind) : (s.notify p k).beyondStage = s.beyondStage := rfl

@[simp] theorem answer_beyondStage (s : State) (p : PortId) (k tag : Byte) (r : Reply) :
    (s.answer p k tag r).beyondStage = s.beyondStage := rfl

@[simp] theorem rederive_beyondStage (s : State) : s.rederive.beyondStage = s.beyondStage := by
  unfold State.rederive
  split <;> rfl

@[simp] theorem enterStage_beyondStage (s : State) (sl : SlotId) (h : Hire) : (s.enterStage sl h).beyondStage = s.beyondStage := by
  unfold State.enterStage
  rw [rederive_beyondStage]
  rfl

@[simp] theorem writeHire_beyondStage (s : State) (sl : SlotId) (h : Hire) : (s.writeHire sl h).beyondStage = s.beyondStage := by
  unfold State.writeHire
  split <;> simp

@[simp] theorem eachHire_beyondStage (s : State) (f : Hire → Hire) : (s.eachHire f).beyondStage = s.beyondStage := by
  simp [State.eachHire]

@[simp] theorem expireBooking_beyondStage (s : State) (sl : SlotId) : (s.expireBooking sl).beyondStage = s.beyondStage := by
  unfold State.expireBooking
  split <;> simp [State.notifyConsoleFleet]

@[simp] theorem emptyBooked_beyondStage (s : State) (sl : SlotId) : (s.emptyBooked sl).beyondStage = s.beyondStage := by
  unfold State.emptyBooked
  split <;> simp

@[simp] theorem renew_beyondStage (s : State) (p : PortId) (sl : SlotId) : (s.renew p sl).beyondStage = s.beyondStage := by
  unfold State.renew
  split <;> simp

/-! ### Filing -/

@[simp] theorem putHire_beyondFiling (s : State) (sl : SlotId) (h : Hire) : (s.putHire sl h).beyondFiling = s.beyondFiling := rfl

@[simp] theorem putPort_beyondFiling (s : State) (p : PortId) (x : Port) : (s.putPort p x).beyondFiling = s.beyondFiling := rfl

@[simp] theorem notify_beyondFiling (s : State) (p : PortId) (k : NoticeKind) : (s.notify p k).beyondFiling = s.beyondFiling := rfl

@[simp] theorem count_beyondFiling (s : State) (id : CounterId) (n : Nat) : (s.count id n).beyondFiling = s.beyondFiling := rfl

@[simp] theorem setOffline_beyondFiling (s : State) (n : Nat) : (s.setOffline n).beyondFiling = s.beyondFiling := rfl

@[simp] theorem withJournal_beyondFiling (s : State) (j : Journal) : ({ s with journal := j } : State).beyondFiling = s.beyondFiling := rfl

@[simp] theorem withShift_beyondFiling (s : State) (x : ShiftAccounting) :
    ({ s with shift := x } : State).beyondFiling = s.beyondFiling := rfl

@[simp] theorem enterStage_beyondFiling (s : State) (sl : SlotId) (h : Hire) : (s.enterStage sl h).beyondFiling = s.beyondFiling :=
  beyondFiling_of_beyondStage (enterStage_beyondStage s sl h)

@[simp] theorem rederive_beyondFiling (s : State) : s.rederive.beyondFiling = s.beyondFiling :=
  beyondFiling_of_beyondStage (rederive_beyondStage s)

@[simp] theorem updateLow_beyondFiling (s : State) : s.updateLow.beyondFiling = s.beyondFiling := by
  unfold State.updateLow
  dsimp only
  split <;> rfl

@[simp] theorem handOver_beyondFiling (s : State) (b : RecordBody) : (s.handOver b).beyondFiling = s.beyondFiling := by
  unfold State.handOver
  split <;> simp

@[simp] theorem beginSummary_beyondFiling (s : State) : s.beginSummary.beyondFiling = s.beyondFiling := by
  unfold State.beginSummary
  split <;> simp

@[simp] theorem completeHire_beyondFiling (s : State) (sl : SlotId) : (s.completeHire sl).beyondFiling = s.beyondFiling := by
  simp [State.completeHire, State.askTotals]

@[simp] theorem completeShift_beyondFiling (s : State) : s.completeShift.beyondFiling = s.beyondFiling := by
  simp [State.completeShift, State.askTotals, State.notifyAll]

@[simp] theorem complete_beyondFiling (s : State) (b : RecordBody) : (s.complete b).beyondFiling = s.beyondFiling := by
  unfold State.complete
  split <;> simp

@[simp] theorem noSlot_beyondFiling (s : State) (r : JournalRecord) (rest : List JournalRecord) :
    (s.noSlot r rest).beyondFiling = s.beyondFiling := by
  unfold State.noSlot
  dsimp only
  split <;> simp

theorem beginFiling_beyondFiling (n : Nat) : ∀ s : State, (s.beginFiling n).beyondFiling = s.beyondFiling := by
  induction n with
  | zero => intro s; rfl
  | succ n ih =>
    intro s
    unfold State.beginFiling
    split
    · split
      · rfl
      · rw [ih, noSlot_beyondFiling]
    · rfl

@[simp] theorem fileOn_beyondFiling (s : State) : s.fileOn.beyondFiling = s.beyondFiling := beginFiling_beyondFiling _ s

@[simp] theorem enterFiling_beyondFiling (s : State) (sl : SlotId) (o : HireOutcome) :
    (s.enterFiling sl o).beyondFiling = s.beyondFiling := by
  simp [State.enterFiling]

@[simp] theorem settle_beyondFiling (s : State) (sl : SlotId) : (s.settle sl).beyondFiling = s.beyondFiling := by
  unfold State.settle
  split <;> simp

@[simp] theorem settleAndFile_beyondFiling (s : State) (sl : SlotId) : (s.settleAndFile sl).beyondFiling = s.beyondFiling := by
  unfold State.settleAndFile
  split <;> simp

@[simp] theorem lateApproval_beyondFiling (s : State) (sl : SlotId) (n : Nat) (m : PayMethod) (a t : Nat) (r : BitVec 96) :
    (s.lateApproval sl n m a t r).beyondFiling = s.beyondFiling := by
  unfold State.lateApproval
  dsimp only
  split <;> simp

@[simp] theorem expirePayments_beyondFiling (s : State) (sl : SlotId) : (s.expirePayments sl).beyondFiling = s.beyondFiling := by
  unfold State.expirePayments
  dsimp only
  split
  · split <;> simp
  · rfl

@[simp] theorem expireClaim_beyondFiling (s : State) (sl : SlotId) : (s.expireClaim sl).beyondFiling = s.beyondFiling := by
  unfold State.expireClaim
  dsimp only
  split
  · split <;> simp
  · rfl

@[simp] theorem expireSettlements_beyondFiling (s : State) : s.expireSettlements.beyondFiling = s.beyondFiling := by
  simp [State.expireSettlements, State.expireSlot]

@[simp] theorem fareWork_beyondFiling (s : State) : s.fareWork.beyondFiling = s.beyondFiling := by
  simp [State.fareWork, State.expireBookings, State.fareTickHires, beyondFiling_of_beyondStage (expireBooking_beyondStage _ _),
    beyondFiling_of_beyondStage (eachHire_beyondStage _ _)]

@[simp] theorem closeShift_beyondFiling (s : State) : s.closeShift.beyondFiling = s.beyondFiling := by
  simp [State.closeShift, beyondFiling_of_beyondStage (emptyBooked_beyondStage _ _)]

@[simp] theorem verifyFail_beyondFiling (s : State) : s.verifyFail.beyondFiling = s.beyondFiling := by
  unfold State.verifyFail
  split
  · unfold State.faultRule
    dsimp only
    split <;> split <;> simp [State.notifyConsoleFleet]
  · rfl

/-! ### Reading a field off -/

/-- A field outside the reach of a filing is kept by an operation that keeps `beyondFiling`. -/
theorem kept_of_beyondFiling {s t : State} (h : t.beyondFiling = s.beyondFiling) :
    t.pending = s.pending ∧ t.power = s.power ∧ t.pins = s.pins ∧ t.timeBase = s.timeBase ∧ t.clock = s.clock
      ∧ t.clockStatus = s.clockStatus ∧ t.nextHire = s.nextHire ∧ t.vacantRem = s.vacantRem ∧ t.odoRem = s.odoRem
      ∧ t.tariffs = s.tariffs ∧ t.intercom = s.intercom ∧ t.alarm = s.alarm ∧ t.indicators = s.indicators
      ∧ t.partClear = s.partClear ∧ t.draws = s.draws := by
  have h0 := congrArg State.pending h
  have h1 := congrArg State.power h
  have h2 := congrArg State.pins h
  have h3 := congrArg State.timeBase h
  have h4 := congrArg State.clock h
  have h5 := congrArg State.clockStatus h
  have h6 := congrArg State.nextHire h
  have h7 := congrArg State.vacantRem h
  have h8 := congrArg State.odoRem h
  have h9 := congrArg State.tariffs h
  have h10 := congrArg State.intercom h
  have h11 := congrArg State.alarm h
  have h12 := congrArg State.indicators h
  have h13 := congrArg State.partClear h
  have h14 := congrArg State.draws h
  exact ⟨h0, h1, h2, h3, h4, h5, h6, h7, h8, h9, h10, h11, h12, h13, h14⟩

/-- The shift and the journal are kept too by an operation that keeps `beyondStage`. -/
theorem kept_of_beyondStage {s t : State} (h : t.beyondStage = s.beyondStage) : t.shift = s.shift ∧ t.journal = s.journal := by
  have h0 := congrArg State.shift h
  have h1 := congrArg State.journal h
  exact ⟨h0, h1⟩

end Sys2Proof.Machine
end

