-- ==== Sys2Proof/Laws/Requests.lean ====
section
/-! SUPPORT. What the shared work of requests can do, each said once: admission, the table of checks, the slot named, a change of
stage, and the conditions of the checks read as propositions. -/

namespace Sys2Proof.Machine

/-- A request on a port that is ready is its owner's work and reply (R175). -/
theorem request_ready {s : State} {p k tag owner} (h : Ready s p) (hk : Kind.offered k p = true) :
    request p k tag owner s = .next ((owner s).1.answer p k.byte tag (owner s).2) := by
  unfold request admitRequest
  rw [h.1]; simp [h.2, hk]

/-- Every check holds: the work is done (R179). -/
theorem checked_ok {checks work s} (h : firstRefusal checks = none) : checked checks work s = work s := by
  unfold checked; rw [h]

/-- The first check that fails gives the refusal, and nothing changes (R179). -/
theorem checked_no {checks work s c} (h : firstRefusal checks = some c) : checked checks work s = (s, .refuse c) := by
  unfold checked; rw [h]

/-- The checks hold when the first holds and the rest do. -/
theorem fr_cons {b c r} : firstRefusal ((b, c) :: r) = none ↔ b = true ∧ firstRefusal r = none := by
  cases b <;> simp [firstRefusal]

/-- A request that names a slot that exists. -/
theorem withSlot_some {b sl work} (h : slotOf b = some sl) : withSlot b work = work sl := by
  unfold withSlot; rw [h]

/-- What admission can do: nothing, a refusal or a reply on the port, or the owner's work and its reply (R175). -/
theorem admit_rel {R : State → State → Prop} {p k tag off owner} {s : State} (h0 : R s s) (hp : ∀ t x, R s t → R s (t.putPort p x)) (ho : R s (owner s).1) :
    R s (admitRequest p k tag off owner s) := by
  unfold admitRequest
  split
  · exact h0
  · exact hp _ _ h0
  · split
    · exact hp _ _ h0
    · split
      · exact hp _ _ ho
      · exact hp _ _ h0

/-- A property of the state that the work establishes holds after the checks too. -/
theorem chk_rel {Q : State → Prop} {cs w} {s : State} (h0 : Q s) (h : Q (w s).1) : Q (checked cs w s).1 := by
  unfold checked; split
  · exact h0
  · exact h

/-- The same for a request that names a slot. -/
theorem slot_rel {Q : State → Prop} {b} {w : SlotId → Owner} {s : State} (h0 : Q s) (h : ∀ sl, Q (w sl s).1) : Q (withSlot b w s).1 := by
  unfold withSlot; cases slotOf b with
  | none => exact h0
  | some x => exact h x

@[simp] theorem putPort_putPort (s : State) (p x y) : (s.putPort p x).putPort p y = s.putPort p y := by
  unfold State.putPort; simp

/-! ### Derivation and changes of stage -/

theorem rederive_cases (t : State) : t.rederive = t ∨ t.rederive = { t with sign := t.sign.aim t.derivedTarget t.fullLevel } := by
  unfold State.rederive; split
  · left; rfl
  · right; rfl

theorem rederive_target (t : State) : t.rederive.sign.target = t.derivedTarget := by
      unfold State.rederive; split
      · rename_i h; exact h.symm
      · unfold Sign.aim; split <;> rfl

/-- A derivation touches the sign alone (R133). -/
theorem rederive_only (t : State) : t.rederive = { t with sign := t.rederive.sign } := by
  rcases rederive_cases t with h | h <;> rw [h]

theorem derivedTarget_rederive (t : State) : t.rederive.derivedTarget = t.derivedTarget := by
  unfold State.rederive Sign.aim; split
  · rfl
  · split <;> rfl

theorem enterStage_hires (s : State) (sl h) : (s.enterStage sl h).hires = s.hires.put sl h := by
  unfold State.enterStage; dsimp only; rw [rederive_only]; rfl

theorem enterStage_ports (s : State) (sl h) : (s.enterStage sl h).ports = s.ports.stageEntered sl h.stage := by
  unfold State.enterStage; dsimp only; rw [rederive_only]; rfl

/-- A change of stage touches hires, ports and sign (R5). -/
theorem enterStage_only (s : State) (sl h) : s.enterStage sl h = { s with hires := s.hires.put sl h, ports := s.ports.stageEntered sl h.stage, sign := (s.enterStage sl h).sign } := by
  unfold State.enterStage; dsimp only; rw [rederive_only]; rfl

/-! ### Conditions read as propositions -/

theorem isPending_false (e : Payment) : e.isPending = false ↔ e.state ≠ .pending := by simp [Payment.isPending]

theorem isPending_true (e : Payment) : e.isPending = true ↔ e.state = .pending := by simp [Payment.isPending]

theorem isApproved_true (e : Payment) : e.isApproved = true ↔ e.state = .approved := by simp [Payment.isApproved]

theorem isApproved_false (e : Payment) : e.isApproved = false ↔ e.state ≠ .approved := by simp [Payment.isApproved]

/-- The four conditions of the settlement check (R19). -/
theorem settled_iff (h : Hire) : h.settled = true ↔ h.stage = .stopped ∧ h.claim = none ∧ (∀ e ∈ h.payments, e.state ≠ .pending) ∧ h.balance = 0 ∧ ∃ e ∈ h.payments, e.state = .approved := by
  simp [Hire.settled, isPending_false, isApproved_true, and_assoc]

theorem whenRunning_eq {s : State} (h : s.power = .running) (f) : whenRunning f s = f s := by unfold whenRunning State.runs; rw [h]; rfl

theorem free_count (h : Hire) : h.occupied = false ↔ h.stage = .free := by simp [Hire.occupied]

theorem allFree_iff (t : HireTable) : t.allFree = true ↔ ∀ sl, (t.get sl).stage = .free := by
  unfold HireTable.allFree HireTable.occupied HireTable.count
  constructor
  · intro h sl
    have := h
    cases ha : t.a.occupied <;> cases hb : t.b.occupied <;> cases hc : t.c.occupied <;> simp [ha, hb, hc] at h
    cases sl <;> exact (free_count _).1 (by assumption)
  · intro h
    have ha := (free_count _).2 (h .a); have hb := (free_count _).2 (h .b); have hc := (free_count _).2 (h .c)
    simp only [HireTable.get] at ha hb hc
    simp [ha, hb, hc]

theorem othersFree_iff (s : State) (sl) : s.hires.othersFree sl = true ↔ AloneIn s sl := by
  unfold HireTable.othersFree AloneIn; rw [allFree_iff]
  constructor
  · intro h o ho; have := h o; rwa [hires_get_put_other _ _ ho] at this
  · intro h o; by_cases ho : o = sl
    · subst ho; simp [Hire.cleared]
    · rw [hires_get_put_other _ _ ho]; exact h o ho

theorem claimedBy_iff (h : Hire) (p) : h.claimedBy p = true ↔ ∃ c, h.claim = some c ∧ c.port = p := by
  unfold Hire.claimedBy; cases h.claim <;> simp

theorem claimedBy_other {h : Hire} {p} (hc : h.claimedBy p = true) : h.claimedByOther p = false := by
  obtain ⟨c, h1, h2⟩ := (claimedBy_iff h p).1 hc; unfold Hire.claimedByOther; rw [h1]; simp [h2]

end Sys2Proof.Machine
end

