-- ==== Sys2Proof/Laws/Covert.lean ====
section
/-! SUPPORT. What the covert alarm can reach, said once for each shared operation: `State.covert` puts at one fixed value everything that
the alarm may differ in (R172: the alarm, its lamp and flash, the monitor select and sample, the Fleet port), and an operation whose work
the alarm cannot reach gives, up to `covert`, the same state from a state and from its covert form. -/

namespace Sys2Proof.Machine

/-- The state with the alarm, the ALARM lamp, the flash, the monitor select and sample and the Fleet port at one fixed value. -/
def State.covert (s : State) : State :=
  { s with
    alarm := ⟨.quiet, [], true, 0, 0⟩
    sign := { s.sign with flash := none, lamps := { s.sign.lamps with alarm := Lamp.dark } }
    intercom := { s.intercom with monitor := .off, monitorOut := 0 }
    ports := { s.ports with fleet := Port.reset 0 0 } }

/-- An operation that the alarm cannot reach. -/
def Blind (f : State → State) : Prop := ∀ s, (f s.covert).covert = (f s).covert

@[simp] theorem covert_covert (s : State) : s.covert.covert = s.covert := rfl

namespace Blind

/-- Two states alike but for the alarm stay so. -/
theorem alike {f : State → State} (hf : Blind f) {s u : State} (h : u.covert = s.covert) : (f u).covert = (f s).covert := by
  rw [← hf u, h, hf s]

theorem id : Blind fun s => s := fun _ => rfl

theorem comp {f g : State → State} (hf : Blind f) (hg : Blind g) : Blind fun s => g (f s) := fun s => hg.alike (hf s)

/-- A choice made on what the alarm cannot reach. -/
theorem choose {c : State → Prop} [∀ s, Decidable (c s)] {f g : State → State} (hc : ∀ s, c s.covert ↔ c s) (hf : Blind f) (hg : Blind g) :
    Blind fun s => if c s then f s else g s := by
  intro s
  by_cases h : c s
  · simp only [if_pos h, if_pos ((hc s).2 h)]; exact hf s
  · simp only [if_neg h, if_neg (fun x => h ((hc s).1 x))]; exact hg s

theorem putHire (sl : SlotId) (h : Hire) : Blind fun s => s.putHire sl h := fun _ => rfl

theorem count (id : CounterId) (n : Nat) : Blind fun s => s.count id n := fun _ => rfl

theorem askTotals : Blind State.askTotals := fun _ => rfl

theorem notify (p : PortId) (k : NoticeKind) : Blind fun s => s.notify p k := by
  intro s; cases p <;> rfl

theorem notifyConsoleFleet (k : NoticeKind) : Blind fun s => s.notifyConsoleFleet k := fun _ => rfl

theorem notifyAll (k : NoticeKind) : Blind fun s => s.notifyAll k := fun _ => rfl

theorem rederive : Blind State.rederive := by
  intro s
  unfold State.rederive
  by_cases h : s.derivedTarget = s.sign.target
  · rw [if_pos h, if_pos (show s.covert.derivedTarget = s.covert.sign.target from h)]; rfl
  · rw [if_neg h, if_neg (show ¬s.covert.derivedTarget = s.covert.sign.target from h)]
    unfold Sign.aim
    cases ht : s.sign.test with
    | none => simp only [State.covert, ht]; rfl
    | some x => simp only [State.covert, ht]; rfl

theorem enterStage (sl : SlotId) (h : Hire) : Blind fun s => s.enterStage sl h :=
  comp (f := fun s => { s.putHire sl h with ports := (s.putHire sl h).ports.stageEntered sl h.stage }) (fun _ => rfl) rederive

theorem updateLow : Blind State.updateLow := by
  intro s
  unfold State.updateLow
  dsimp only
  by_cases h : (decide (s.journal.free < s.tariffs.config.lowWater) && !s.journal.low) = true
  · rw [if_pos h, if_pos (show (decide (s.covert.journal.free < s.covert.tariffs.config.lowWater) && !s.covert.journal.low) = true from h)]
    rfl
  · rw [if_neg h, if_neg (show ¬(decide (s.covert.journal.free < s.covert.tariffs.config.lowWater) && !s.covert.journal.low) = true from h)]
    rfl

theorem updateLowFrom (old : Nat) : Blind fun s => s.updateLowFrom old :=
  choose (c := fun s => s.tariffs.config.lowWater = old) (fun _ => Iff.rfl) id updateLow

theorem handOver (b : RecordBody) : Blind fun s => s.handOver b :=
  choose (c := fun s => s.acceptsRecord b = true) (fun _ => Iff.rfl)
    (comp (f := fun s => { s with journal := { s.journal with queue := s.journal.queue ++ [s.formRecord b] } }) (fun _ => rfl) updateLow) id

theorem beginSummary : Blind State.beginSummary := by
  intro s
  unfold State.beginSummary
  by_cases h : s.shift.state = .closing ∧ s.shift.summary = false ∧ s.hires.allFree = true
  · rw [if_pos h, if_pos (show s.covert.shift.state = .closing ∧ s.covert.shift.summary = false ∧ s.covert.hires.allFree = true from h)]
    exact handOver s.shiftBody { s with shift := { s.shift with summary := true } }
  · rw [if_neg h, if_neg (show ¬(s.covert.shift.state = .closing ∧ s.covert.shift.summary = false ∧ s.covert.hires.allFree = true) from h)]
    rfl

theorem completeHire (sl : SlotId) : Blind fun s => s.completeHire sl := fun s =>
  beginSummary.alike (askTotals.alike ((enterStage sl Hire.cleared).alike
    (s := { s with shift := s.shift.fileHire (s.hire sl) }) (u := { s.covert with shift := s.shift.fileHire (s.hire sl) }) rfl))

theorem completeShift : Blind State.completeShift := fun s =>
  askTotals.alike (rederive.alike ((notifyAll .shiftClosed).alike
    (s := { s with shift := { s.shift with state := .closed, summary := false } })
    (u := { s.covert with shift := { s.shift with state := .closed, summary := false } }) rfl))

theorem complete (b : RecordBody) : Blind fun s => s.complete b := by
  cases b with
  | hire r => exact completeHire r.slot
  | shift => exact completeShift
  | lateApproval => exact id
  | activation => exact id
  | retentionLost => exact id

theorem noSlot (r : JournalRecord) (rest : List JournalRecord) : Blind fun s => s.noSlot r rest := by
  unfold State.noSlot
  dsimp only
  cases r.body.reserved
  · exact comp (f := fun s => { s with journal := { s.journal with queue := rest } }) (fun _ => rfl) updateLow
  · exact comp (comp (f := fun s => { s with journal := { s.journal with queue := rest, unfiled := s.journal.unfiled ++ [r] } })
      (fun _ => rfl) updateLow) (complete r.body)

theorem beginFiling : ∀ n, Blind (State.beginFiling n)
  | 0 => id
  | n + 1 => by
    intro s
    unfold State.beginFiling
    rw [show s.covert.journal = s.journal from rfl]
    cases s.journal.inFlight with
    | some f => rfl
    | none =>
      cases s.journal.queue with
      | nil => rfl
      | cons r rest =>
        dsimp only
        split
        · rfl
        · exact (beginFiling n).alike (noSlot r rest s)

theorem fileOn : Blind State.fileOn := fun s => beginFiling (s.journal.queue.length + 2) s

theorem enterFiling (sl : SlotId) (o : HireOutcome) : Blind fun s => s.enterFiling sl o := fun s =>
  comp (comp (putHire sl ((s.hire sl).filed o)) (handOver (.hire (((s.hire sl).filed o).record sl)))) (enterStage sl ((s.hire sl).filed o)) s

theorem settleAndFile (sl : SlotId) : Blind fun s => s.settleAndFile sl :=
  choose (c := fun s => (s.hire sl).settled = true) (fun _ => Iff.rfl) (comp (enterFiling sl .paid) fileOn) id

theorem renew (p : PortId) (sl : SlotId) : Blind fun s => s.renew p sl :=
  choose (c := fun s => (s.hire sl).claimedBy p = true) (fun _ => Iff.rfl) (fun _ => rfl) id

/-- An operation that changes nothing but what the alarm may differ in. -/
theorem silent {f : State → State} (h : ∀ s, (f s).covert = s.covert) : Blind f := fun s => by rw [h, h]; rfl

/-- An event taken only while the part runs. -/
theorem whenRunning {f : State → State} (hf : Blind f) : Blind (whenRunning f) := choose (c := fun s => s.runs = true) (fun _ => Iff.rfl) hf id

/-! ### The Fare Engine and the fare tick -/

theorem writeHire (sl : SlotId) (h : Hire) : Blind fun s => s.writeHire sl h :=
  choose (c := fun s => h.stage = (s.hire sl).stage) (fun _ => Iff.rfl) (putHire sl h) (enterStage sl h)

theorem eachHire (f : Hire → Hire) : Blind fun s => s.eachHire f := fun s =>
  (writeHire .c (f s.hires.c)).alike ((writeHire .b (f s.hires.b)).alike (writeHire .a (f s.hires.a) s))

theorem vacantPulse : Blind State.vacantPulse := fun _ => rfl

theorem odometerPulse : Blind State.odometerPulse := fun _ => rfl

theorem wheelPulse : Blind State.wheelPulse := by
  intro s
  have h := eachHire (Hire.pulse s.tariffs.config.k s.hires.running s.tariffs.active) s
  unfold State.wheelPulse
  refine odometerPulse.alike ?_
  rw [show s.covert.vacant = s.vacant from rfl]
  cases s.vacant
  · exact h
  · exact vacantPulse.alike h

theorem fareTickHires : Blind State.fareTickHires := fun s => eachHire (Hire.fareTick s.hires.running s.tariffs.active) s

theorem expireBooking (sl : SlotId) : Blind fun s => s.expireBooking sl :=
  choose (c := fun s => s.bookingLapses sl = true) (fun _ => Iff.rfl)
    (comp (enterStage sl Hire.cleared) (notifyConsoleFleet .bookingExpired)) id

theorem expireBookings : Blind State.expireBookings := fun s =>
  (expireBooking .c).alike ((expireBooking .b).alike (expireBooking .a s))

theorem settle (sl : SlotId) : Blind fun s => s.settle sl :=
  choose (c := fun s => (s.hire sl).settled = true) (fun _ => Iff.rfl) (enterFiling sl .paid) id

theorem expirePayments (sl : SlotId) : Blind fun s => s.expirePayments sl := by
  intro s
  dsimp only
  unfold State.expirePayments
  rw [show s.covert.hire sl = s.hire sl from rfl, show s.covert.timeBase = s.timeBase from rfl]
  dsimp only
  split
  · refine (settle sl).alike ?_
    cases (s.hire sl).claim
    · exact putHire sl _ s
    · exact (notify _ .paymentExpired).alike (putHire sl _ s)
  · rfl

theorem expireClaim (sl : SlotId) : Blind fun s => s.expireClaim sl := by
  intro s
  dsimp only
  unfold State.expireClaim
  rw [show s.covert.hire sl = s.hire sl from rfl, show s.covert.timeBase = s.timeBase from rfl]
  dsimp only
  split
  · split
    · exact (settle sl).alike ((notify .console .claimExpired).alike ((notify _ .claimExpired).alike (putHire sl _ s)))
    · rfl
  · rfl

theorem expireSlot (sl : SlotId) : Blind fun s => s.expireSlot sl := comp (expirePayments sl) (expireClaim sl)

theorem expireSettlements : Blind State.expireSettlements := fun s =>
  (expireSlot .c).alike ((expireSlot .b).alike (expireSlot .a s))

theorem fareWork : Blind State.fareWork := fun s =>
  fileOn.alike (expireSettlements.alike (expireBookings.alike (fareTickHires s)))

/-! ### The sign at a tick -/

/-- A level given to the ALARM lamp leaves the covert form of any sign as it is. -/
theorem alarmLevel_covert (s : State) (x : Sign) (n : Nat) : State.covert { s with sign := x.alarmLevel n } = State.covert { s with sign := x } := by
  unfold Sign.alarmLevel
  split <;> rfl

theorem flashOn_covert (s : State) (x : Sign) (n : Nat) : State.covert { s with sign := x.flashOn n } = State.covert { s with sign := x } :=
  alarmLevel_covert s { x with flash := some ⟨true, 50⟩ } n

/-- The goals of a target are given alike. -/
theorem aim (t : State → Target) (n : State → Nat) (ht : ∀ s, t s.covert = t s) (hn : ∀ s, n s.covert = n s) :
    Blind fun s => { s with sign := s.sign.aim (t s) (n s) } := by
  intro s
  dsimp only
  rw [ht, hn]
  unfold Sign.aim
  rw [show s.covert.sign.test = s.sign.test from rfl]
  cases s.sign.test <;> rfl

theorem fullLevelChanged : Blind State.fullLevelChanged := by
  have e : ∀ s : State, s.fullLevelChanged.covert = State.covert { s with sign := s.sign.aim s.sign.target s.fullLevel } := by
    intro s
    unfold State.fullLevelChanged
    dsimp only
    split
    · exact alarmLevel_covert s _ _
    · rfl
  intro s
  rw [e, e]
  exact aim (fun s => s.sign.target) State.fullLevel (fun _ => rfl) (fun _ => rfl) s

theorem rampTick : Blind State.rampTick := by
  refine choose (c := fun s => s.timeBase % 2 = 0) (fun _ => Iff.rfl) (fun s => ?_) id
  unfold Sign.ramp
  rw [show s.covert.sign.test = s.sign.test from rfl]
  cases s.sign.test <;> rfl

theorem readAmbient (night : Bool) : Blind fun s => s.readAmbient night := by
  intro s
  dsimp only
  unfold State.readAmbient
  by_cases h : s.sign.night = night
  · rw [if_pos h, if_pos (show s.covert.sign.night = night from h)]; rfl
  · rw [if_neg h, if_neg (show ¬s.covert.sign.night = night from h)]
    rw [show ambientTurns s.covert.sign night = ambientTurns s.sign night from rfl]
    cases ambientTurns s.sign night
    · rfl
    · exact fullLevelChanged.alike rfl

theorem flashTick : Blind fun s => { s with sign := s.sign.flashTick s.fullLevel } := by
  refine silent fun s => ?_
  unfold Sign.flashTick
  split
  · rfl
  · split
    · exact alarmLevel_covert s _ _
    · rfl

theorem endTest (s : State) : State.covert { s with sign := s.sign.endTest s.fullLevel }
    = State.covert { s with sign := Sign.aim { s.sign with test := none } s.sign.target s.fullLevel } := by
  unfold Sign.endTest Sign.alarmLevel
  rfl

theorem testTick : Blind State.testTick := by
  intro s
  unfold State.testTick
  rw [show s.covert.sign.test = s.sign.test from rfl]
  cases s.sign.test with
  | none => rfl
  | some t =>
    dsimp only
    cases t.ends with
    | false => rfl
    | true =>
      cases t.lamp.next with
      | some i =>
        obtain ⟨lamp, left⟩ := t
        cases lamp <;> cases i <;> rfl
      | none =>
        refine (notify .fleet .signTestDone).alike ?_
        rw [endTest, endTest]
        rfl

theorem checkLamps (b : LampBits) : Blind fun s => s.checkLamps b := by
  have e : ∀ s : State, (s.checkLamps b).covert
      = (if newFrontFault s.sign.lamps (s.sign.lamps.check b)
          then State.notifyConsoleFleet { s with sign := { s.sign with lamps := s.sign.lamps.check b } } .signFault
          else { s with sign := { s.sign with lamps := s.sign.lamps.check b } }).covert := by
    intro s
    unfold State.checkLamps
    dsimp only
    split <;> rfl
  intro s
  dsimp only
  rw [e, e, show newFrontFault s.covert.sign.lamps (s.covert.sign.lamps.check b) = newFrontFault s.sign.lamps (s.sign.lamps.check b) from rfl]
  cases newFrontFault s.sign.lamps (s.sign.lamps.check b) <;> rfl

theorem signTick (fare : Bool) : Blind fun s => s.signTick fare := by
  intro s
  have h : State.covert (State.testTick _) = State.covert (State.testTick _) :=
    testTick.alike (flashTick.alike ((readAmbient s.pins.night).alike (rampTick s)))
  have hc : ∀ a b : State, a.covert = b.covert → (a.checkLamps a.pins.sense).covert = (b.checkLamps b.pins.sense).covert := by
    intro a b e
    have hp : a.pins = b.pins := by have h1 := congrArg State.pins e; exact h1
    rw [hp]
    exact (checkLamps b.pins.sense).alike e
  unfold State.signTick
  cases fare
  · exact h
  · exact hc _ _ h

/-! ### The intercom and the alarm at a tick -/

theorem readTalk (pressed : Bool) : Blind fun s => s.readTalk pressed := by
  intro s
  dsimp only
  unfold State.readTalk
  dsimp only
  rw [show s.covert.intercom.talkTurns pressed = s.intercom.talkTurns pressed from rfl]
  cases s.intercom.talkTurns pressed <;> rfl

theorem readCall (pressed : Bool) : Blind fun s => s.readCall pressed := by
  intro s
  dsimp only
  unfold State.readCall
  dsimp only
  rw [show s.covert.intercom.callPressed pressed = s.intercom.callPressed pressed from rfl,
    show s.covert.intercom.mode = s.intercom.mode from rfl]
  cases s.intercom.callPressed pressed && s.intercom.mode == TalkMode.privateTalk
  · rfl
  · refine (notify .console .call).alike ?_
    unfold Intercom.ring
    dsimp only
    rw [show s.covert.intercom.chime = s.intercom.chime from rfl]
    cases s.intercom.chime <;> rfl

theorem intercomTick : Blind State.intercomTick := fun s => (readCall s.pins.call).alike (readTalk s.pins.talk s)

theorem alarmTick : Blind State.alarmTick := by
  refine silent fun s => ?_
  unfold State.alarmTick
  dsimp only
  split
  · unfold State.alarmPress
    split
    · exact flashOn_covert _ _ _
    · rfl
  · rfl

/-! ### Part clear, start-up and the supply -/

theorem signDerived : Blind State.signDerived := by
  have e : ∀ s : State, s.signDerived.covert = State.covert { s with sign := s.sign.aim s.derivedTarget s.fullLevel } := by
    intro s
    unfold State.signDerived
    dsimp only
    split
    · exact flashOn_covert _ _ _
    · rfl
  intro s
  rw [e, e]
  exact aim State.derivedTarget State.fullLevel (fun _ => rfl) (fun _ => rfl) s

theorem signClear : Blind State.signClear := fun _ => signDerived.alike rfl

theorem signPowerOn (ov : Override) : Blind fun s => s.signPowerOn ov := fun _ => signDerived.alike rfl

theorem completePartClear : Blind State.completePartClear := fun s =>
  (notify .fleet .clearDone).alike ((signPowerOn .auto).alike (by cases s.alarm.state <;> rfl))

theorem partClearOn : Blind State.partClearOn := by
  intro s
  unfold State.partClearOn
  rw [show s.covert.journal = s.journal from rfl, show s.covert.partClear = s.partClear from rfl]
  cases s.journal.queue.isEmpty
  · rfl
  · cases s.partClear with
    | idle => rfl
    | recovering => rfl
    | plain => exact completePartClear s
    | waiting =>
      dsimp only
      cases s.journal.recoveryDue
      · exact completePartClear s
      · rfl

theorem recoveryStart : Blind State.recoveryStart := choose (c := fun s => s.partClear = .waiting) (fun _ => Iff.rfl) partClearOn id

theorem recoveryEnd (failed : List Nat) : Blind fun s => s.recoveryEnd failed :=
  choose (c := fun s => s.partClear = .recovering) (fun _ => Iff.rfl) (fun s => completePartClear.alike (updateLow.alike rfl)) id

theorem tick (l : Lines) : Blind (State.tick l) := by
  have h : ∀ b, Blind fun s => (State.signTick { s with pins := l, timeBase := s.nextCount } b).intercomTick.alarmTick := fun b s =>
    alarmTick.alike (intercomTick.alike ((signTick b).alike
      (s := { s with pins := l, timeBase := s.nextCount }) (u := { s.covert with pins := l, timeBase := s.nextCount }) rfl))
  intro s
  unfold State.tick
  refine partClearOn.alike ?_
  rw [show s.covert.fareNext = s.fareNext from rfl]
  cases s.fareNext
  · rw [if_neg Bool.false_ne_true, if_neg Bool.false_ne_true]; exact h false s
  · rw [if_pos rfl, if_pos rfl]; exact fareWork.alike (h true s)

/-- A tick in which an event falls that the alarm cannot reach. -/
theorem tickWith {falls : State → Bool} (l : Lines) (h : ∀ s, falls s.covert = falls s) : Blind fun s => tickWith falls l s :=
  choose (c := fun s => falls s = true) (fun s => by rw [h]) (whenRunning (tick l)) id

theorem onShift (g : ShiftAccounting → ShiftAccounting) : Blind fun s => { s with shift := g s.shift } := fun _ => rfl

theorem eraseLost (erased : List Nat) : Blind fun s => s.eraseLost erased :=
  choose (c := fun s => s.partClear = .recovering) (fun _ => Iff.rfl) (fun _ => rfl) id

theorem remaindersBelow : Blind State.remaindersBelow := by
  intro s
  unfold State.remaindersBelow State.vacantBelow
  dsimp only
  by_cases h : s.shift.state = .closed
  · rw [if_pos h, if_pos (show s.covert.shift.state = .closed from h)]; rfl
  · rw [if_neg h, if_neg (show ¬s.covert.shift.state = .closed from h)]; rfl

theorem restoreHires : Blind State.restoreHires := by
  intro s
  unfold State.restoreHires
  refine (settle .c).alike ((settle .b).alike ((settle .a).alike ?_))
  by_cases h : s.hires.running = 0
  · rw [if_pos h, if_pos (show s.covert.hires.running = 0 from h)]; rfl
  · rw [if_neg h, if_neg (show ¬s.covert.hires.running = 0 from h)]; rfl

theorem takeUp (u : StartUp) (configBad tariffBad : Bool) : Blind fun s => s.takeUp u configBad tariffBad := by
  intro s
  dsimp only
  have h0 := eraseLost u.erased s
  have h1 := congrArg (fun x : State => { x with partClear := PartClear.idle }) h0
  have h2 := congrArg (fun x : State => { x with partClear := PartClear.idle, hires := x.hires.map Hire.withoutTariff }) h0
  unfold State.takeUp
  refine fileOn.alike ((onShift ShiftAccounting.taken).alike (restoreHires.alike ?_))
  cases configBad <;> cases tariffBad
  · exact h1
  · exact h2
  · exact remaindersBelow.alike h1
  · exact remaindersBelow.alike h2

theorem loseRetained (u : StartUp) : Blind fun s => s.loseRetained u := by
  intro s
  dsimp only
  unfold State.loseRetained
  refine fileOn.alike ((handOver .retentionLost).alike (updateLow.alike ?_))
  unfold State.eraseLost
  by_cases h : s.partClear = .recovering
  · rw [if_pos h, if_pos (show s.covert.partClear = .recovering from h)]; rfl
  · rw [if_neg h, if_neg (show ¬s.covert.partClear = .recovering from h)]; rfl

theorem workingMemory : Blind State.workingMemory := fun s => (signPowerOn s.sign.override).alike (by cases s.alarm.state <;> rfl)

theorem startUp (intact : Bool) (u : StartUp) : Blind fun s => s.startUp intact u := by
  intro s
  dsimp only
  unfold State.startUp
  refine workingMemory.alike ?_
  rw [show s.covert.tariffs = s.tariffs from rfl, show s.covert.shift = s.shift from rfl]
  cases intact
  · rw [if_neg Bool.false_ne_true, if_neg Bool.false_ne_true]
    exact (loseRetained u).alike (s := { s with pins := u.lines, tariffs := s.tariffs.loaded u, shift := s.shift.storeLoaded u }) rfl
  · rw [if_pos rfl, if_pos rfl]
    exact (takeUp u (s.tariffs.configBad u) (s.tariffs.tariffBad u)).alike ((updateLowFrom s.tariffs.config.lowWater).alike
      (s := { s with pins := u.lines, tariffs := s.tariffs.loaded u, shift := s.shift.storeLoaded u }) rfl)

theorem warned : Blind State.warned := by
  intro s
  unfold State.warned
  rw [show s.covert.power = s.power from rfl]
  cases s.power <;> rfl

theorem freeze : Blind State.freeze := by
  intro s
  unfold State.freeze
  rw [show s.covert.power = s.power from rfl]
  cases s.power <;> rfl

/-! ### The ends of store work -/

theorem verifyPass : Blind State.verifyPass := by
  intro s
  unfold State.verifyPass
  rw [show s.covert.journal = s.journal from rfl]
  split
  · exact fileOn.alike ((complete _).alike (updateLow.alike rfl))
  · rfl

theorem faultNotice (before : JournalState) :
    Blind fun s => if before = .normal ∧ s.journal.state ≠ .normal then s.notifyConsoleFleet .journalFault else s :=
  choose (c := fun s => before = .normal ∧ s.journal.state ≠ .normal) (fun _ => Iff.rfl) (notifyConsoleFleet .journalFault) id

theorem faultRule (before : JournalState) : Blind fun s => s.faultRule before := by
  intro s
  dsimp only
  unfold State.faultRule
  dsimp only
  rw [show s.covert.journal = s.journal from rfl, show s.covert.reserve = s.reserve from rfl]
  by_cases h : s.journal.state = .normal ∧ s.journal.free < s.reserve
  · rw [if_pos h, if_pos h]
    exact (faultNotice before).alike rfl
  · rw [if_neg h, if_neg h]
    exact (faultNotice before).alike rfl

theorem verifyFail : Blind State.verifyFail := by
  intro s
  unfold State.verifyFail
  rw [show s.covert.journal = s.journal from rfl]
  split
  · exact fileOn.alike (updateLow.alike ((faultRule _).alike rfl))
  · rfl

theorem configWritten : Blind State.configWritten := by
  intro s
  unfold State.configWritten
  rw [show s.covert.tariffs = s.tariffs from rfl]
  cases s.tariffs.configWrite <;> rfl

theorem configWriteFailed : Blind State.configWriteFailed := by
  intro s
  unfold State.configWriteFailed
  rw [show s.covert.tariffs = s.tariffs from rfl]
  cases s.tariffs.configWrite
  · rfl
  · dsimp only
    split <;> rfl

theorem activationDone : Blind State.activationDone := by
  intro s
  unfold State.activationDone
  rw [show s.covert.tariffs = s.tariffs from rfl]
  cases s.tariffs.activation with
  | none => rfl
  | some new => exact fileOn.alike ((notify .fleet .activationDone).alike ((handOver _).alike rfl))

theorem activationFailed : Blind State.activationFailed :=
  choose (c := fun s => s.tariffs.activation.isSome = true) (fun _ => Iff.rfl) (fun _ => rfl) id

theorem onTotalsWrite (f : ShiftAccounting → TotalsWrite → ShiftAccounting) : Blind (State.onTotalsWrite f) := by
  intro s
  unfold State.onTotalsWrite
  rw [show s.covert.shift = s.shift from rfl]
  cases s.shift.totalsWrite <;> rfl

/-! ### Codec frames -/

theorem frontFrame (mic : Sample) : Blind fun s => s.frontFrame mic := by
  intro s
  dsimp only
  unfold State.frontFrame Intercom.frontFrame Intercom.chimeStep
  dsimp only
  rw [show s.covert.intercom.chime = s.intercom.chime from rfl]
  cases s.intercom.chime with
  | none => rfl
  | some t =>
    dsimp only
    cases t.ends <;> rfl

theorem rearFrame (mic : Sample) : Blind fun s => s.rearFrame mic := by
  intro s
  dsimp only
  unfold State.rearFrame Intercom.rearFrame Intercom.promptStep
  dsimp only
  rw [show s.covert.intercom.playing = s.intercom.playing from rfl, show s.covert.intercom.waiting = s.intercom.waiting from rfl,
    show s.covert.intercom.mode = s.intercom.mode from rfl]
  cases s.intercom.playing with
  | none => rfl
  | some t =>
    dsimp only
    cases t.ends with
    | false => rfl
    | true =>
      cases s.intercom.waiting with
      | cons tone rest => rfl
      | nil =>
        dsimp only
        cases s.intercom.mode.halfDuplex <;> rfl

end Blind

end Sys2Proof.Machine
end

