-- ==== Sys2Proof/Laws/CovertRequests.lean ====
section
/-! SUPPORT. Of the work of each request's owner but CLEAR_PART's, that what the alarm may differ in does not reach beyond itself (R172):
one lemma for each owner. -/

namespace Sys2Proof.Machine

/-- An owner whose work the alarm cannot reach beyond what it may differ in itself; what it replies is not spoken of. -/
def BlindOwner (w : Owner) : Prop := Blind fun s => (w s).1

namespace BlindOwner

open Blind

/-- An owner that answers with the state as it is. -/
theorem still {w : Owner} (h : ∀ s, (w s).1 = s) : BlindOwner w := fun s => by
  dsimp only
  rw [h, h]
  rfl

/-- A table of checks on what the alarm cannot reach, then work that may depend on the state too. -/
theorem checked {cs : State → List (Bool × Code)} {w : State → Owner} (hc : ∀ s, cs s.covert = cs s)
    (hw : Blind fun s => (w s s).1) : BlindOwner fun s => checked (cs s) (w s) s := by
  intro s
  unfold Machine.checked
  dsimp only
  rw [hc]
  cases firstRefusal (cs s) with
  | none => exact hw s
  | some c => rfl

/-- A request that names a slot. -/
theorem withSlot {b : Byte} {w : SlotId → Owner} (hw : ∀ sl, BlindOwner (w sl)) : BlindOwner (withSlot b w) := by
  intro s
  unfold Machine.withSlot
  cases slotOf b with
  | none => rfl
  | some sl => exact hw sl s

/-- An owner chosen by the request alone. -/
theorem either {c : Prop} [Decidable c] {v w : Owner} (hv : BlindOwner v) (hw : BlindOwner w) : BlindOwner (if c then v else w) := by
  by_cases h : c
  · rw [if_pos h]; exact hv
  · rw [if_neg h]; exact hw

/-! ### Shift Accounting -/

theorem openShift (driver : Half) : BlindOwner (openShiftOwner driver) :=
  checked (cs := fun _ => _) (w := fun _ => _) (fun _ => rfl) fun _ => rederive.alike rfl

theorem emptyBooked (sl : SlotId) : Blind fun s => s.emptyBooked sl :=
  choose (c := fun s => (s.hire sl).stage = .booked) (fun _ => Iff.rfl) (enterStage sl Hire.cleared) Blind.id

theorem closeShift : BlindOwner closeShiftOwner := by
  intro s
  unfold closeShiftOwner
  dsimp only
  by_cases h : s.shift.state = .opened
  · rw [if_pos h, if_pos (show s.covert.shift.state = .opened from h)]
    exact fileOn.alike (beginSummary.alike (rederive.alike ((emptyBooked .c).alike ((emptyBooked .b).alike ((emptyBooked .a).alike rfl)))))
  · rw [if_neg h, if_neg (show ¬s.covert.shift.state = .opened from h)]
    rfl

theorem setPooling (pooling : Byte) : BlindOwner (setPoolingOwner pooling) := by
  intro s
  unfold setPoolingOwner
  dsimp only
  split
  · rfl
  · refine checked (cs := fun _ => _) (w := fun _ => _) (fun _ => rfl) (fun s => ?_) s
    exact rederive.alike rfl

theorem latchCounters (p : PortId) : BlindOwner (latchCountersOwner p) := by cases p <;> exact fun _ => rfl

theorem readCounter (p : PortId) (index : Byte) : BlindOwner (readCounterOwner p index) := by
  refine still fun s => ?_
  unfold readCounterOwner
  split
  · rfl
  · split <;> rfl

/-! ### The Hire Controller -/

theorem book (slot : Byte) (ref : BitVec 64) (deadline : Half) : BlindOwner (bookOwner slot ref deadline) := by
  refine withSlot fun sl => checked (cs := fun _ => _) (w := fun _ => _) (fun _ => rfl) fun s => ?_
  exact (enterStage sl _).alike rfl

theorem cancelBooking (slot : Byte) : BlindOwner (cancelBookingOwner slot) := by
  refine withSlot fun sl => checked (cs := fun _ => _) (w := fun _ => _) (fun _ => rfl) fun s => ?_
  exact enterStage sl _ s

theorem beginHire (sl : SlotId) (id : Nat) (t : Tariff) : BlindOwner (beginHire sl id t) := fun s =>
  (enterStage sl _).alike (s := { s with nextHire := hireNumberAfter s.nextHire })
    (u := { s.covert with nextHire := hireNumberAfter s.nextHire }) rfl

theorem startHire (slot choice : Byte) : BlindOwner (startHireOwner slot choice) := by
  refine withSlot fun sl => checked (cs := fun _ => _) (w := fun _ => _) (fun _ => rfl) fun s => ?_
  dsimp only
  rw [show s.covert.tariffs = s.tariffs from rfl, show s.covert.chosenTariff = s.chosenTariff from rfl]
  split
  · rfl
  · exact checked (cs := fun _ => _) (w := fun _ => _) (fun _ => rfl) (beginHire sl _ _) s

theorem suspend (slot : Byte) : BlindOwner (suspendOwner slot) := by
  refine withSlot fun sl => checked (cs := fun _ => _) (w := fun _ => _) (fun _ => rfl) fun s => ?_
  exact (count _ _).alike ((enterStage sl _).alike rfl)

theorem resume (slot : Byte) : BlindOwner (resumeOwner slot) := by
  refine withSlot fun sl => checked (cs := fun _ => _) (w := fun _ => _) (fun _ => rfl) fun s => ?_
  exact (enterStage sl _).alike rfl

theorem stopHire (slot : Byte) : BlindOwner (stopHireOwner slot) := by
  refine withSlot fun sl s => ?_
  dsimp only
  rw [show s.covert.hire sl = s.hire sl from rfl]
  cases (s.hire sl).stage
  case stopped => exact checked (cs := fun _ => _) (w := fun _ => _) (fun _ => rfl) (fun s => rfl) s
  all_goals first | rfl | exact (enterStage sl _).alike rfl

theorem addPresentExtra (sl : SlotId) (id : Nat) (e : ExtraEntry) : BlindOwner (addPresentExtra sl id e) := by
  refine checked (cs := fun _ => _) (w := fun _ => _) (fun _ => rfl) fun s => ?_
  exact (settleAndFile sl).alike rfl

theorem addExtra (slot extra : Byte) : BlindOwner (addExtraOwner slot extra) := by
  refine withSlot fun sl => checked (cs := fun _ => _) (w := fun _ => _) (fun _ => rfl) fun s => ?_
  dsimp only
  rw [show s.covert.tariffs = s.tariffs from rfl]
  split
  · rfl
  · exact addPresentExtra sl _ _ s

theorem removeExtra (slot extra : Byte) : BlindOwner (removeExtraOwner slot extra) := by
  refine withSlot fun sl => checked (cs := fun _ => _) (w := fun _ => _) (fun _ => rfl) fun s => ?_
  exact (settleAndFile sl).alike rfl

theorem closeUnpaid (slot : Byte) : BlindOwner (closeUnpaidOwner slot) := by
  refine withSlot fun sl => checked (cs := fun _ => _) (w := fun _ => _) (fun _ => rfl) fun s => ?_
  exact fileOn.alike (enterFiling sl _ s)

theorem readHire (p : PortId) (slot : Byte) : BlindOwner (readHireOwner p slot) := withSlot fun sl => renew p sl

/-! ### The Settlement Unit -/

theorem claim (p : PortId) (slot : Byte) : BlindOwner (claimOwner p slot) := by
  refine withSlot fun sl => checked (cs := fun _ => _) (w := fun _ => _) (fun _ => rfl) fun s => ?_
  dsimp only
  rw [show s.covert.hire sl = s.hire sl from rfl]
  split
  · exact renew p sl s
  · refine checked (cs := fun _ => _) (w := fun _ => _) (fun _ => rfl) (fun s => ?_) s
    exact (settleAndFile sl).alike rfl

theorem release (p : PortId) (slot : Byte) : BlindOwner (releaseOwner p slot) := by
  refine withSlot fun sl => checked (cs := fun _ => _) (w := fun _ => _) (fun _ => rfl) fun s => ?_
  exact (settleAndFile sl).alike rfl

theorem beginPayment (p : PortId) (slot method : Byte) (amount tip : Word) : BlindOwner (beginPaymentOwner p slot method amount tip) := by
  refine withSlot fun sl => checked (cs := fun _ => _) (w := fun _ => _) (fun _ => rfl) fun s => ?_
  exact (settleAndFile sl).alike rfl

theorem postCash (slot : Byte) (amount tip : Word) : BlindOwner (postCashOwner slot amount tip) := by
  refine withSlot fun sl => checked (cs := fun _ => _) (w := fun _ => _) (fun _ => rfl) fun s => ?_
  exact (settleAndFile sl).alike rfl

theorem reverseEntry (p : PortId) (sl : SlotId) (index : Nat) (e : Payment) : BlindOwner (reverseEntry p sl index e) := by
  intro s
  unfold Machine.reverseEntry
  refine (settleAndFile sl).alike ?_
  split <;> rfl

theorem reverse (p : PortId) (slot entry : Byte) : BlindOwner (reverseOwner p slot entry) := by
  refine withSlot fun sl => checked (cs := fun _ => _) (w := fun _ => _) (fun _ => rfl) fun s => ?_
  dsimp only
  rw [show s.covert.hire sl = s.hire sl from rfl]
  split
  · rfl
  · exact checked (cs := fun _ => _) (w := fun _ => _) (fun _ => rfl) (reverseEntry p sl _ _) s

theorem lateApproval (sl : SlotId) (number : Nat) (m : PayMethod) (amount tip : Nat) (ref : BitVec 96) :
    Blind fun s => s.lateApproval sl number m amount tip ref := by
  intro s
  unfold State.lateApproval
  refine fileOn.alike ((notify .fleet .lateApproval).alike ?_)
  rw [show (s.covert.count .lateApprovals 1).journal = (s.count .lateApprovals 1).journal from rfl,
    show (s.covert.count .lateApprovals 1).reserve = (s.count .lateApprovals 1).reserve from rfl]
  split
  · exact (handOver _).alike rfl
  · rfl

theorem writeResult (p : PortId) (sl : SlotId) (index : Nat) (e : Payment) : BlindOwner (writeResult p sl index e) := fun _ =>
  (settleAndFile sl).alike rfl

theorem pendingResult (p : PortId) (sl : SlotId) (f : ResultFields) (approved : Bool) (route : Route) (e : Payment) :
    BlindOwner (pendingResult p sl f approved route e) := by
  intro s
  unfold Machine.pendingResult
  dsimp only
  rw [show s.covert.hire sl = s.hire sl from rfl, show s.covert.shift = s.shift from rfl]
  split
  · rfl
  · split
    · rfl
    · split
      · exact writeResult p sl _ _ s
      · cases route with
        | online => exact writeResult p sl _ _ s
        | offline =>
          dsimp only
          split
          · exact (writeResult p sl _ _).alike rfl
          · rfl

theorem lateResult (sl : SlotId) (f : ResultFields) (approved : Bool) (e : Payment) : Blind fun s => s.lateResult sl f approved e := by
  intro s
  unfold State.lateResult
  dsimp only
  rw [show s.covert.hire sl = s.hire sl from rfl]
  split
  · rfl
  · split
    · split
      · rfl
      · exact (lateApproval sl _ _ _ _ _).alike (putHire sl _ s)
    · exact lateApproval sl _ _ _ _ _ s

theorem expiredResult (p : PortId) (sl : SlotId) (f : ResultFields) (approved : Bool) (e : Payment) :
    BlindOwner (expiredResult p sl f approved e) := by
  intro s
  unfold Machine.expiredResult
  dsimp only
  split
  · rfl
  · exact (renew p sl).alike (lateResult sl f approved e s)

theorem presentResult (p : PortId) (sl : SlotId) (f : ResultFields) (approved : Bool) (route : Route) :
    BlindOwner (presentResult p sl f approved route) := by
  intro s
  unfold Machine.presentResult
  dsimp only
  rw [show s.covert.hire sl = s.hire sl from rfl]
  split
  · rfl
  · split
    · rfl
    · split
      · rfl
      · split
        · exact pendingResult p sl f approved route _ s
        · exact expiredResult p sl f approved _ s
        · rfl

theorem goneResult (sl : SlotId) (f : ResultFields) (approved : Bool) : BlindOwner (goneResult sl f approved) := by
  intro s
  unfold Machine.goneResult
  dsimp only
  split
  · rfl
  · split
    · exact lateApproval sl _ _ _ _ _ s
    · rfl

theorem paymentResult (p : PortId) (f : ResultFields) : BlindOwner (paymentResultOwner p f) := by
  intro s
  unfold paymentResultOwner
  dsimp only
  split
  · split
    · rfl
    · rename_i sl _
      rw [show s.covert.hire sl = s.hire sl from rfl]
      split
      · exact presentResult p sl f _ _ s
      · exact goneResult sl f _ s
  · rfl

/-! ### The Tariff Store and the Time Base -/

theorem answerBlock (pl : List Byte) (c : Chain) (code : Code) (result : List Byte) : BlindOwner (answerBlock pl c code result) := by
  intro s
  unfold Machine.answerBlock
  dsimp only
  split <;> rfl

theorem loadBlock (pl : List Byte) (c : Chain) : BlindOwner (loadBlock pl c) := by
  intro s
  unfold Machine.loadBlock
  dsimp only
  rw [show s.covert.tariffs = s.tariffs from rfl]
  split
  · exact answerBlock pl _ _ _ s
  · split
    · exact (answerBlock pl _ _ _).alike rfl
    · exact answerBlock pl _ _ _ s

theorem load (pl : List Byte) : BlindOwner (loadOwner pl) :=
  checked (cs := fun _ => _) (w := fun _ => _) (fun _ => rfl) fun s => loadBlock pl (s.tariffs.chain.begun .load) s

theorem compareBlock (pl : List Byte) (c : Chain) : BlindOwner (compareBlock pl c) := by
  intro s
  unfold Machine.compareBlock
  dsimp only
  rw [show s.covert.tariffs = s.tariffs from rfl]
  split
  · exact answerBlock pl _ _ _ s
  · split <;> exact answerBlock pl _ _ _ s

theorem compare (pl : List Byte) : BlindOwner (compareOwner pl) :=
  checked (cs := fun _ => _) (w := fun _ => _) (fun _ => rfl) fun s => compareBlock pl (s.tariffs.chain.begun .compare) s

theorem activate : BlindOwner activateOwner := checked (cs := fun _ => _) (w := fun _ => _) (fun _ => rfl) fun _ => rfl

theorem readTariff (set item place : Byte) : BlindOwner (readTariffOwner set item place) := by
  refine still fun s => ?_
  unfold readTariffOwner
  split
  · rfl
  · split <;> rfl

theorem configured (f : ConfigFields) : Blind fun s => s.configured f := by
  have h1 : ∀ s : State, State.covert _ = State.covert _ := fun s =>
    (updateLowFrom s.tariffs.config.lowWater).alike
      (s := { s with
        tariffs := { s.tariffs with config := s.tariffs.config.updated f, configWrite := some 0 }
        odoRem := if changesK s f then 0 else s.odoRem })
      (u := { s.covert with
        tariffs := { s.tariffs with config := s.tariffs.config.updated f, configWrite := some 0 }
        odoRem := if changesK s f then 0 else s.odoRem }) rfl
  have h2 : ∀ a b : State, ∀ n, a.covert = b.covert → State.covert (if a.fullLevel = n then a else a.fullLevelChanged)
      = State.covert (if b.fullLevel = n then b else b.fullLevelChanged) := fun a b n e =>
    (choose (c := fun s => s.fullLevel = n) (f := fun s => s) (g := State.fullLevelChanged) (fun _ => Iff.rfl) Blind.id fullLevelChanged).alike e
  exact fun s => h2 _ _ s.fullLevel (h1 s)

theorem setConfig (f : ConfigFields) : BlindOwner (setConfigOwner f) :=
  checked (cs := fun _ => _) (w := fun _ => _) (fun _ => rfl) (configured f)

theorem setClock (f : ClockFields) : BlindOwner (setClockOwner f) := by
  intro s
  unfold setClockOwner
  dsimp only
  rw [show s.covert.shift = s.shift from rfl, show s.covert.clock = s.clock from rfl]
  split <;> rfl

theorem setClockRead : BlindOwner setClockReadOwner := fun _ => rfl

/-! ### The Journal -/

theorem readJournal (n : Byte) : BlindOwner (readJournalOwner n) := checked (cs := fun _ => _) (w := fun _ => _) (fun _ => rfl) fun _ => rfl

theorem ackJournal (seq : Word) : BlindOwner (ackJournalOwner seq) := by
  refine checked (cs := fun _ => _) (w := fun _ => _) (fun _ => rfl) fun s => ?_
  dsimp only
  rw [show s.covert.journal = s.journal from rfl]
  split
  · rfl
  · exact updateLow.alike rfl

theorem readUnfiled : BlindOwner readUnfiledOwner := by
  refine still fun s => ?_
  unfold readUnfiledOwner
  split <;> rfl

theorem ackUnfiled (n : Byte) : BlindOwner (ackUnfiledOwner n) := checked (cs := fun _ => _) (w := fun _ => _) (fun _ => rfl) fun _ => rfl

/-! ### The Sign Driver -/

theorem signOverride (value : Byte) : BlindOwner (signOverrideOwner value) := by
  intro s
  unfold signOverrideOwner
  dsimp only
  split
  · rfl
  · split
    · rfl
    · by_cases h : s.shift.state = .opened
      · rw [if_pos h, if_pos (show s.covert.shift.state = .opened from h)]
        exact rederive.alike rfl
      · rw [if_neg h, if_neg (show ¬s.covert.shift.state = .opened from h)]
        rfl

theorem signTestRun : BlindOwner signTestRunOwner := by
  intro s
  unfold signTestRunOwner
  dsimp only
  rw [show s.covert.shift = s.shift from rfl, show s.covert.sign.test = s.sign.test from rfl]
  split <;> rfl

theorem signTest (value : Byte) : BlindOwner (signTestOwner value) :=
  either signTestRun (either (still fun _ => rfl) (still fun _ => rfl))

theorem signClearRequest : BlindOwner signClearOwner := signClear

/-! ### The Intercom Switch -/

theorem setTalkMode (mode : Byte) : BlindOwner (setTalkModeOwner mode) := by
  intro s
  unfold setTalkModeOwner
  dsimp only
  split
  · rfl
  · rename_i m _
    by_cases h : m = s.intercom.mode
    · rw [if_pos h, if_pos (show m = s.covert.intercom.mode from h)]; rfl
    · rw [if_neg h, if_neg (show ¬m = s.covert.intercom.mode from h)]
      unfold Intercom.enterMode
      dsimp only
      rw [show s.covert.intercom.mode = s.intercom.mode from rfl]
      cases needsQuiet s.intercom.mode m <;> rfl

theorem setVolume (path volume : Byte) : BlindOwner (setVolumeOwner path volume) := by
  intro s
  unfold setVolumeOwner
  dsimp only
  split
  · rfl
  · rename_i i _
    refine checked (cs := fun _ => _) (w := fun _ => _) (fun _ => rfl) (fun s => ?_) s
    cases i <;> rfl

theorem readIntercom : BlindOwner readIntercomOwner := fun _ => rfl

theorem intercomClear : BlindOwner intercomClearOwner := fun _ => rfl

theorem postPrompt (tone : Byte) : BlindOwner (postPromptOwner tone) := by
  refine checked (cs := fun _ => _) (w := fun _ => _) (fun _ => rfl) fun s => ?_
  dsimp only
  unfold Intercom.post
  rw [show s.covert.intercom.playing = s.intercom.playing from rfl]
  cases s.intercom.playing <;> rfl

theorem setMonitor (select : Byte) : BlindOwner (setMonitorOwner select) := by
  intro s
  unfold setMonitorOwner
  dsimp only
  split <;> rfl

/-! ### The Alarm Unit and the Port Interface -/

theorem alarmStandDown : BlindOwner alarmStandDownOwner := by
  refine silent fun s => ?_
  unfold alarmStandDownOwner
  split
  · exact alarmLevel_covert _ _ _
  · rfl

theorem readAlarmLog : BlindOwner readAlarmLogOwner := still fun _ => rfl

theorem setIndicators (enable value : Byte) : BlindOwner (setIndicatorsOwner enable value) := by
  intro s
  unfold setIndicatorsOwner
  dsimp only
  rw [show s.covert.indicators = s.indicators from rfl]
  split
  · rfl
  · exact (notify .console .indicator).alike rfl

theorem ackNotices (p : PortId) (mask : Word) : BlindOwner (ackNoticesOwner p mask) := by cases p <;> exact fun _ => rfl

theorem setNoticeMask (p : PortId) (mask : Word) : BlindOwner (setNoticeMaskOwner p mask) := by cases p <;> exact fun _ => rfl

theorem setStageMask (p : PortId) (mask : Byte) : BlindOwner (setStageMaskOwner p mask) := by cases p <;> exact fun _ => rfl

end BlindOwner

end Sys2Proof.Machine
end

