-- ==== Sys2Proof/Laws/CovertReplies.lean ====
section
/-! SUPPORT. Of each owner that serves the Console or the Payment port, that what it replies does not tell of what the alarm may differ in
(R172): one lemma for each owner. -/

namespace Sys2Proof.Machine

/-- An owner whose reply does not tell of what the alarm may differ in. -/
def BlindReply (w : Owner) : Prop := ∀ s : State, (w s.covert).2 = (w s).2

namespace BlindReply

/-- Two states alike but for the alarm are replied to alike. -/
theorem alike {w : Owner} (h : BlindReply w) {s u : State} (e : u.covert = s.covert) : (w u).2 = (w s).2 := by rw [← h u, e, h s]

theorem doneReply {s t : State} {xs ys} (h : xs = ys) : (done t xs).2 = (done s ys).2 := by rw [h]; exact (rfl : Reply.of .ok ys = Reply.of .ok ys)

theorem checkedReply {cs cs' w w'} {s t : State} (h : cs' = cs) (g : (w' t).2 = (w s).2) : (checked cs' w' t).2 = (checked cs w s).2 := by
  subst h
  unfold Machine.checked
  cases firstRefusal cs' with
  | none => exact g
  | some c => rfl

theorem slotReply {b} {w w' : SlotId → Owner} {s t : State} (g : ∀ sl, (w' sl t).2 = (w sl s).2) : (withSlot b w' t).2 = (withSlot b w s).2 := by
  unfold Machine.withSlot
  cases slotOf b with
  | none => rfl
  | some sl => exact g sl

theorem openShift (driver : Half) : BlindReply (openShiftOwner driver) := fun _ => checkedReply rfl (doneReply rfl)

theorem closeShift : BlindReply closeShiftOwner := by
  intro s
  unfold closeShiftOwner
  rw [show s.covert.shift = s.shift from rfl]
  split <;> exact doneReply rfl

theorem readShift : BlindReply readShiftOwner := fun _ => doneReply rfl

theorem latchCounters (p : PortId) : BlindReply (latchCountersOwner p) := fun _ => doneReply rfl

theorem readCounter (p : PortId) (index : Byte) (hp : p ≠ .fleet) : BlindReply (readCounterOwner p index) := by
  intro s
  unfold readCounterOwner
  rw [show (s.covert.port p).snapshot = (s.port p).snapshot by
    cases p with
    | console => rfl
    | payment => rfl
    | fleet => exact absurd rfl hp]
  cases (s.port p).snapshot
  · rfl
  · dsimp only; split <;> rfl

theorem startHire (slot choice : Byte) : BlindReply (startHireOwner slot choice) := by
  refine fun s => slotReply fun sl => checkedReply rfl ?_
  rw [show s.covert.tariffs = s.tariffs from rfl, show s.covert.chosenTariff = s.chosenTariff from rfl]
  split
  · rfl
  · exact checkedReply rfl (doneReply rfl)

theorem suspend (slot : Byte) : BlindReply (suspendOwner slot) := fun _ => slotReply fun _ => checkedReply rfl rfl

theorem resume (slot : Byte) : BlindReply (resumeOwner slot) := fun _ => slotReply fun _ => checkedReply rfl rfl

theorem stopHire (slot : Byte) : BlindReply (stopHireOwner slot) := by
  refine fun s => slotReply fun sl => ?_
  unfold State.hire
  dsimp only
  rw [show s.covert.hires = s.hires from rfl]
  cases (s.hires.get sl).stage <;> first | exact doneReply rfl | rfl | exact checkedReply rfl (doneReply rfl)

theorem addExtra (slot extra : Byte) : BlindReply (addExtraOwner slot extra) := by
  refine fun s => slotReply fun sl => checkedReply rfl ?_
  rw [show s.covert.tariffs = s.tariffs from rfl]
  split
  · rfl
  · exact checkedReply rfl rfl

theorem removeExtra (slot extra : Byte) : BlindReply (removeExtraOwner slot extra) := fun _ => slotReply fun _ => checkedReply rfl rfl

theorem closeUnpaid (slot : Byte) : BlindReply (closeUnpaidOwner slot) := fun _ => slotReply fun _ => checkedReply rfl rfl

theorem readHire (p : PortId) (slot : Byte) : BlindReply (readHireOwner p slot) := fun _ => slotReply fun _ => doneReply rfl

theorem claim (p : PortId) (slot : Byte) : BlindReply (claimOwner p slot) := by
  refine fun s => slotReply fun sl => checkedReply rfl ?_
  rw [show s.covert.hire sl = s.hire sl from rfl]
  split
  · exact doneReply rfl
  · exact checkedReply rfl (doneReply rfl)

theorem release (p : PortId) (slot : Byte) : BlindReply (releaseOwner p slot) := fun _ => slotReply fun _ => checkedReply rfl (doneReply rfl)

theorem beginPayment (p : PortId) (slot method : Byte) (amount tip : Word) : BlindReply (beginPaymentOwner p slot method amount tip) :=
  fun _ => slotReply fun _ => checkedReply rfl (doneReply rfl)

theorem postCash (slot : Byte) (amount tip : Word) : BlindReply (postCashOwner slot amount tip) := fun _ => slotReply fun _ => checkedReply rfl rfl

theorem reverse (p : PortId) (slot entry : Byte) : BlindReply (reverseOwner p slot entry) := by
  refine fun s => slotReply fun sl => checkedReply rfl ?_
  rw [show s.covert.hire sl = s.hire sl from rfl]
  split
  · rfl
  · exact checkedReply rfl (doneReply rfl)

theorem pendingResult (p : PortId) (sl : SlotId) (f : ResultFields) (approved : Bool) (route : Route) (e : Payment) :
    BlindReply (pendingResult p sl f approved route e) := by
  intro s
  unfold Machine.pendingResult
  rw [show s.covert.hire sl = s.hire sl from rfl, show s.covert.shift = s.shift from rfl]
  split
  · rfl
  · split
    · rfl
    · split
      · exact doneReply rfl
      · cases route with
        | online => exact doneReply rfl
        | offline =>
          dsimp only
          split
          · exact doneReply rfl
          · rfl

theorem presentResult (p : PortId) (sl : SlotId) (f : ResultFields) (approved : Bool) (route : Route) :
    BlindReply (presentResult p sl f approved route) := by
  intro s
  unfold Machine.presentResult
  dsimp only
  rw [show s.covert.hire sl = s.hire sl from rfl]
  split
  · rfl
  · split
    · rfl
    · split
      · rfl
      · split
        · exact pendingResult p sl f approved route _ s
        · unfold expiredResult; split <;> rfl
        · rfl

theorem paymentResult (p : PortId) (f : ResultFields) : BlindReply (paymentResultOwner p f) := by
  intro s
  unfold paymentResultOwner
  split
  · split
    · rfl
    · rename_i sl _
      rw [show s.covert.hire sl = s.hire sl from rfl]
      split
      · exact presentResult p sl f _ _ s
      · unfold goneResult
        split
        · rfl
        · split <;> rfl
  · exact congrArg (resultRefusal _) rfl

/-- What SIGN_OVERRIDE replies tells of the override and the target, which the alarm cannot reach (R133, R135). -/
theorem signOverride (value : Byte) : BlindReply (signOverrideOwner value) := by
  have tell : ∀ a b : State, a.covert = b.covert → (overrideReply a .ok).2 = (overrideReply b .ok).2 := by
    intro a b h
    have blind : ∀ s : State, s.covert.overrideStatus = s.overrideStatus := fun _ => rfl
    exact congrArg (Reply.of .ok) (by rw [← blind a, h, blind b])
  intro s
  unfold signOverrideOwner
  split
  · rfl
  · split
    · rfl
    · rw [show s.covert.shift = s.shift from rfl]
      split
      · exact tell _ _ (Blind.rederive.alike rfl)
      · rfl

theorem setTalkMode (mode : Byte) : BlindReply (setTalkModeOwner mode) := by
  intro s
  unfold setTalkModeOwner
  split
  · rfl
  · rename_i m _
    rw [show s.covert.intercom.mode = s.intercom.mode from rfl]
    split <;> exact doneReply rfl

theorem setVolume (path volume : Byte) : BlindReply (setVolumeOwner path volume) := by
  intro s
  unfold setVolumeOwner
  split
  · rfl
  · rename_i i _
    refine checkedReply rfl ?_
    cases i <;> exact doneReply rfl

theorem readIntercom : BlindReply readIntercomOwner := fun _ => doneReply rfl

theorem intercomClear : BlindReply intercomClearOwner := fun _ => doneReply rfl

theorem postPrompt (tone : Byte) : BlindReply (postPromptOwner tone) := fun _ => checkedReply rfl (doneReply rfl)

theorem readIndicators : BlindReply readIndicatorsOwner := fun _ => doneReply rfl

theorem ackNotices (p : PortId) (mask : Word) (hp : p ≠ .fleet) : BlindReply (ackNoticesOwner p mask) := by
  intro s
  cases p with
  | console => rfl
  | payment => rfl
  | fleet => exact absurd rfl hp

theorem setNoticeMask (p : PortId) (mask : Word) : BlindReply (setNoticeMaskOwner p mask) := fun _ => rfl

theorem setStageMask (p : PortId) (mask : Byte) : BlindReply (setStageMaskOwner p mask) := fun _ => rfl

end BlindReply

end Sys2Proof.Machine
end

