-- ==== Sys2Proof/Laws/CovertFrames.lean ====
section
/-! SUPPORT. Two states alike but for what the alarm may differ in, at the same point of the framing of every port (R172, R174): what
admission and bytes clocked in do to both. -/

namespace Sys2Proof.Machine

/-- Alike but for what the alarm may differ in, the Fleet port at the same point of its framing; where `same` holds, the alarms are in the
same state. -/
structure Framed (same : Prop) (s u : State) : Prop where
  covert      : u.covert = s.covert
  receive     : (u.port .fleet).receive = (s.port .fleet).receive
  outstanding : (u.port .fleet).outstanding = (s.port .fleet).outstanding
  alarm       : same → u.alarm.state = s.alarm.state

namespace Framed

theorem port {same} {s u : State} (h : Framed same s u) {p : PortId} (hp : p ≠ .fleet) : u.port p = s.port p := by
  cases p with
  | console => have := congrArg (fun x : State => x.port .console) h.covert; exact this
  | payment => have := congrArg (fun x : State => x.port .payment) h.covert; exact this
  | fleet => exact absurd rfl hp

theorem power {same} {s u : State} (h : Framed same s u) : u.power = s.power := by
  have := congrArg State.power h.covert; exact this

theorem receiveOf {same} {s u : State} (h : Framed same s u) (p : PortId) : (u.port p).receive = (s.port p).receive := by
  by_cases hp : p = .fleet
  · subst hp; exact h.receive
  · rw [h.port hp]

theorem outstandingOf {same} {s u : State} (h : Framed same s u) (p : PortId) : (u.port p).outstanding = (s.port p).outstanding := by
  by_cases hp : p = .fleet
  · subst hp; exact h.outstanding
  · rw [h.port hp]

theorem refuse {same} {s u : State} (h : Framed same s u) (p : PortId) (tag : Byte) (c : Code) : Framed same (s.refuse p tag c) (u.refuse p tag c) := by
  have hb : Blind fun s => s.refuse p tag c := by cases p <;> exact fun _ => rfl
  refine ⟨hb.alike h.covert, ?_, ?_, fun e => ?_⟩
  · cases p with
    | fleet => rfl
    | console => exact h.receive
    | payment => exact h.receive
  · cases p <;> exact h.outstanding
  · have := h.alarm e; cases p <;> exact this

theorem setReceive {same} {s u : State} (h : Framed same s u) (p : PortId) (r : Option (List Byte)) :
    Framed same (s.setReceive p r) (u.setReceive p r) := by
  have hb : Blind fun s => s.setReceive p r := by cases p <;> exact fun _ => rfl
  refine ⟨hb.alike h.covert, ?_, ?_, fun e => ?_⟩
  · cases p with
    | fleet => rfl
    | console => exact h.receive
    | payment => exact h.receive
  · cases p <;> exact h.outstanding
  · have := h.alarm e; cases p <;> exact this

theorem sampleSeal {same} {s u : State} (h : Framed same s u) (sealed : Bool) : Framed same (s.sampleSeal sealed) (u.sampleSeal sealed) :=
  ⟨(show Blind fun s => s.sampleSeal sealed from fun _ => rfl).alike h.covert, h.receive, h.outstanding, h.alarm⟩

theorem blindAnswer (p : PortId) (kind tag : Byte) (r : Reply) : Blind fun s => s.answer p kind tag r := by cases p <;> exact fun _ => rfl

/-- Admission on a port: what is asked of the owner's work holds up to `covert`, and of its reply only on a port that the alarm may not
reach. -/
theorem admitted {same} {p : PortId} {kind tag : Byte} {offered : Bool} {o : Owner} {s u : State} (h : Framed same s u)
    (hw : offered = true → (o u).1.covert = (o s).1.covert) (hr : p ≠ .fleet → offered = true → (o u).2 = (o s).2) :
    (admitRequest p kind tag offered o u).covert = (admitRequest p kind tag offered o s).covert := by
  unfold admitRequest
  rw [h.power, h.outstandingOf p]
  cases s.power with
  | frozen => exact h.covert
  | failing => exact (h.refuse p tag .busy).covert
  | running =>
    dsimp only
    split
    · exact (h.refuse p tag .busy).covert
    · split
      · rename_i ho
        by_cases hp : p = .fleet
        · subst hp; exact hw ho
        · show ((o u).1.answer p kind tag (o u).2).covert = ((o s).1.answer p kind tag (o s).2).covert
          rw [hr hp ho]
          exact (blindAnswer p kind tag (o s).2).alike (hw ho)
      · exact (blindAnswer p kind tag _).alike h.covert

/-! ### Bytes clocked in -/

/-- After a frame is taken the port is IDLE again (R175). -/
theorem takeFrame_idle (p : PortId) (bs : List Byte) (s : State) (hf : s.power ≠ .frozen) : ((takeFrame p bs s).port p).receive = none := by
  have hr : ∀ (t : State) tag c, ((t.refuse p tag c).port p).receive = none := by intro t tag c; cases p <;> rfl
  have ha : ∀ (t : State) k tag r, ((t.answer p k tag r).port p).receive = none := by intro t k tag r; cases p <;> rfl
  unfold takeFrame
  dsimp only
  split
  · unfold takeRequest
    split
    · unfold admitNull
      split
      · contradiction
      · exact hr _ _ _
      · cases p <;> rfl
    all_goals
      unfold admitRequest
      split
      · contradiction
      · exact hr _ _ _
      · split
        · exact hr _ _ _
        · split <;> exact ha _ _ _ _
  · exact hr _ _ _

/-- An IDLE port ignores bytes (R174). -/
theorem idle_bytes (p : PortId) : ∀ (bs : List Byte) (s : State), (s.port p).receive = none → receiveBytes p bs s = s := by
  intro bs
  induction bs with
  | nil => intro s _; rfl
  | cons b r ih =>
    intro s h
    have e : receiveByte p s b = s := by unfold receiveByte; rw [h]
    show receiveBytes p r (receiveByte p s b) = s
    rw [e]
    exact ih s h

/-- Bytes clocked in on both: whatever holds of all framed pairs, and of the two after the request whose kind byte is the frame's first,
holds after the bytes. -/
theorem bytes {same} (p : PortId) (kind : Byte) (Q : State → State → Prop) (hQ : ∀ a b, Framed same a b → Q a b)
    (hT : ∀ a b tag pl, Framed same a b → Q (takeRequest p kind tag pl a) (takeRequest p kind tag pl b)) :
    ∀ (bs : List Byte) (s u : State), Framed same s u → s.power ≠ .frozen →
      (∀ x, (s.port p).receive = some x → byteAt (x ++ bs) 0 = kind) → Q (receiveBytes p bs s) (receiveBytes p bs u) := by
  intro bs
  induction bs with
  | nil => intro s u h _ _; exact hQ _ _ h
  | cons b r ih =>
    intro s u h hf hc
    have hre := h.receiveOf p
    cases hx : (s.port p).receive with
    | none => rw [idle_bytes p _ s hx, idle_bytes p _ u (by rw [hre, hx])]; exact hQ _ _ h
    | some x =>
      have hb : byteAt (x ++ [b]) 0 = kind := by
        have := hc x hx
        cases x with
        | nil => exact this
        | cons a l => exact this
      have one : ∀ z : State, (z.port p).receive = some x → receiveByte p z b = match progress (x ++ [b]) with
          | .more => z.setReceive p (some (x ++ [b]))
          | .malformed => (z.setReceive p none).refuse p (byteAt x 1) .frameCheck
          | .complete => takeFrame p (x ++ [b]) (z.setReceive p none) := by
        intro z hz; unfold receiveByte; rw [hz] <;> rfl
      show Q (receiveBytes p r (receiveByte p s b)) (receiveBytes p r (receiveByte p u b))
      rw [one s hx, one u (by rw [hre, hx])]
      cases progress (x ++ [b]) with
      | more =>
        refine ih _ _ (h.setReceive p _) (by cases p <;> exact hf) fun y hy => ?_
        have e : ((s.setReceive p (some (x ++ [b]))).port p).receive = some (x ++ [b]) := by cases p <;> rfl
        rw [e] at hy
        cases hy
        rw [List.append_assoc]
        exact hc x hx
      | malformed =>
        have e : ∀ z : State, (((z.setReceive p none).refuse p (byteAt x 1) .frameCheck).port p).receive = none := by
          intro z; cases p <;> rfl
        dsimp only
        rw [idle_bytes p r _ (e s), idle_bytes p r _ (e u)]
        exact hQ _ _ ((h.setReceive p none).refuse p _ _)
      | complete =>
        have e : ∀ z : State, z.power ≠ .frozen → ((takeFrame p (x ++ [b]) (z.setReceive p none)).port p).receive = none := by
          intro z hz; exact takeFrame_idle p _ _ (by cases p <;> exact hz)
        dsimp only
        rw [idle_bytes p r _ (e s hf), idle_bytes p r _ (e u (by rw [h.power]; exact hf))]
        unfold takeFrame
        dsimp only
        rw [hb]
        split
        · exact hT _ _ _ _ (h.setReceive p none)
        · exact hQ _ _ ((h.setReceive p none).refuse p _ _)

end Framed

end Sys2Proof.Machine
end

