-- ==== Sys2Proof/Laws/Filing.lean ====
section
/-! SUPPORT. How far the operations of filing, settlement and expiry reach, each said once. -/

namespace Sys2Proof.Machine

/-- A HIRE record is always taken into the queue (R120). -/
theorem handOver_hire (s : State) (r : HireRecord) : s.handOver (.hire r) = ({ s with journal := { s.journal with queue := s.journal.queue ++ [s.formRecord (.hire r)] } } : State).updateLow := by
  unfold State.handOver; rw [if_pos (by simp [State.acceptsRecord, RecordBody.reserved])]

/-- A SHIFT record is always taken into the queue (R120). -/
theorem handOver_shift (s : State) (d o c k) : s.handOver (.shift d o c k) = ({ s with journal := { s.journal with queue := s.journal.queue ++ [s.formRecord (.shift d o c k)] } } : State).updateLow := by
  unfold State.handOver; rw [if_pos (by simp [State.acceptsRecord, RecordBody.reserved])]

theorem updateLow_journal (s : State) : s.updateLow.journal = { s.journal with low := decide (s.journal.free < s.tariffs.config.lowWater) } := by
  unfold State.updateLow; dsimp only; split <;> rfl

theorem updateLow_only (s : State) : s.updateLow = { s with journal := s.updateLow.journal, ports := s.updateLow.ports } := by
  unfold State.updateLow; dsimp only; split <;> rfl

/-- A change of level reaches the low mark and the ports alone; the mark under the level as it then stands (R125). -/
theorem updateLowFrom_out (s : State) (old : Nat) : s.updateLowFrom old = { s with
      journal := { s.journal with low := if s.tariffs.config.lowWater = old then s.journal.low else decide (s.journal.free < s.tariffs.config.lowWater) }
      ports := (s.updateLowFrom old).ports } := by
  unfold State.updateLowFrom
  split
  · rfl
  · conv_lhs => rw [updateLow_only, updateLow_journal]

theorem updateLow_shift (s : State) : s.updateLow.shift = s.shift := by rw [updateLow_only]

theorem enterFiling_hires (s : State) (sl o) : (s.enterFiling sl o).hires = s.hires.put sl ((s.hire sl).filed o) := by
  unfold State.enterFiling; dsimp only; rw [enterStage_hires, handOver_hire, updateLow_only]; simp [State.putHire]

/-- A hire that enters FILING has its record at the end of the queue (R21). -/
theorem enterFiling_journal (s : State) (sl o) : (s.enterFiling sl o).journal = { s.journal with
    queue := s.journal.queue ++ [⟨s.shift.number, s.clock, .hire (((s.hire sl).filed o).record sl)⟩]
    low := decide (({ s.journal with queue := s.journal.queue ++ [⟨s.shift.number, s.clock, .hire (((s.hire sl).filed o).record sl)⟩] } : Journal).free < s.tariffs.config.lowWater) } := by
  unfold State.enterFiling; dsimp only; rw [(kept_of_beyondStage (enterStage_beyondStage _ _ _)).2, handOver_hire, updateLow_journal]; rfl

theorem beginSummary_shift (s : State) : ∃ b, s.beginSummary.shift = { s.shift with summary := b } := by
  unfold State.beginSummary; split
  · refine ⟨true, ?_⟩
    have : ∀ t : State, ∀ d o c k, (t.handOver (.shift d o c k)).shift = t.shift := by intro t d o c k; rw [handOver_shift, updateLow_shift]
    exact this _ _ _ _ _
  · exact ⟨s.shift.summary, rfl⟩

theorem beginSummary_hires (s : State) : s.beginSummary.hires = s.hires := by
  unfold State.beginSummary; split
  · have : ∀ t : State, ∀ d o c k, (t.handOver (.shift d o c k)).hires = t.hires := by intro t d o c k; rw [handOver_shift, updateLow_only]
    exact this _ _ _ _ _
  · rfl

/-- A write asked for is in flight or remembered (R109). -/
theorem askTotals_parts (x : ShiftAccounting) : x.askTotals = { x with totalsWrite := x.askTotals.totalsWrite, remembered := x.askTotals.remembered, gained := x.askTotals.gained } ∧ x.askTotals.totalsWrite.isSome = true := by
  unfold ShiftAccounting.askTotals; split
  · rename_i h; exact ⟨rfl, h⟩
  · exact ⟨rfl, rfl⟩

/-- The filing of a hire complete, as Shift Accounting sees it (R23, R106, R108, R109). -/
theorem completeHire_eq (s : State) (sl) : ∃ b, (s.completeHire sl).shift = { (s.shift.fileHire (s.hire sl)).askTotals with summary := b } := by
  unfold State.completeHire
  obtain ⟨b, hb⟩ := beginSummary_shift (State.askTotals (State.enterStage { s with shift := s.shift.fileHire (s.hire sl) } sl Hire.cleared))
  refine ⟨b, hb.trans ?_⟩
  have : (State.enterStage { s with shift := s.shift.fileHire (s.hire sl) } sl Hire.cleared).shift = s.shift.fileHire (s.hire sl) := (kept_of_beyondStage (enterStage_beyondStage _ _ _)).1
  unfold State.askTotals; dsimp only; rw [this]

/-! ### The reach of the operations of hires and settlement -/

/-- The journal moves by its queue and its low mark alone. -/
def JSame (j k : Journal) : Prop := k = { j with queue := k.queue, low := k.low }

theorem JSame.refl (j) : JSame j j := rfl

theorem JSame.trans {i j k} (h : JSame i j) (g : JSame j k) : JSame i k := by unfold JSame at *; rw [g, h]

theorem JSame.steady {j k} (h : JSame j k) : k.steady ↔ j.steady := by rw [h]; exact Iff.rfl

/-- No port loses a pending notice. -/
def PLe (q r : Ports) : Prop := ∀ p k, (q.get p).holds k = true → (r.get p).holds k = true

theorem PLe.refl (q) : PLe q q := fun _ _ h => h

theorem PLe.trans {q r t} (h : PLe q r) (g : PLe r t) : PLe q t := fun p k x => g p k (h p k x)

theorem add_holds (x : Port) (k n) (h : x.holds n = true) : (x.add k).holds n = true := by
  unfold Port.holds Port.add at *; simp [h]

theorem add_self (x : Port) (k) : (x.add k).holds k = true := by
  unfold Port.holds Port.add NoticeKind.mask; cases k <;> simp [NoticeKind.bit]

theorem PLe_add (q : Ports) (p k) : PLe q (q.put p ((q.get p).add k)) := by
  intro p' n h; by_cases hp : p' = p
  · subst hp; rw [ports_get_put_same]; exact add_holds _ _ _ h
  · rw [ports_get_put_other _ _ hp]; exact h

theorem PLe_stage (q : Ports) (sl st) : PLe q (q.stageEntered sl st) := by
  intro p n h
  have : ∀ x : Port, x.holds n = true → (x.stageEntered sl st).holds n = true := by
    intro x hx; unfold Port.stageEntered; split
    · exact add_holds _ _ _ hx
    · exact hx
  cases p <;> exact this _ h

/-- What an operation on hires short of a filing may do: the journal moves by its queue and low mark, no port loses a notice, and
nothing beyond the reach of a filing moves. -/
structure Mild (s t : State) : Prop where
  j : JSame s.journal t.journal
  p : PLe s.ports t.ports
  b : t.beyondFiling = s.beyondFiling

theorem Mild.refl (s) : Mild s s := ⟨JSame.refl _, PLe.refl _, rfl⟩

theorem Mild.trans {s t u} (h : Mild s t) (g : Mild t u) : Mild s u := ⟨h.j.trans g.j, h.p.trans g.p, g.b.trans h.b⟩

theorem mild_put (s : State) (sl h) : Mild s (s.putHire sl h) := ⟨JSame.refl _, PLe.refl _, rfl⟩

theorem mild_shift (s : State) (x) : Mild s { s with shift := x } := ⟨JSame.refl _, PLe.refl _, rfl⟩

theorem mild_notify (s : State) (p k) : Mild s (s.notify p k) := ⟨JSame.refl _, PLe_add _ _ _, rfl⟩

theorem mild_notifyCF (s : State) (k) : Mild s (s.notifyConsoleFleet k) := (mild_notify _ _ _).trans (mild_notify _ _ _)

theorem mild_rederive (s : State) : Mild s s.rederive := by
  refine ⟨?_, ?_, rederive_beyondFiling s⟩
  · rw [rederive_only]; exact JSame.refl _
  · rw [rederive_only]; exact PLe.refl _

theorem mild_enterStage (s : State) (sl h) : Mild s (s.enterStage sl h) := by
  refine ⟨?_, ?_, enterStage_beyondFiling s sl h⟩
  · rw [enterStage_only]; exact JSame.refl _
  · rw [enterStage_ports]; exact PLe_stage _ _ _

theorem mild_updateLow (s : State) : Mild s s.updateLow := by
  unfold State.updateLow; dsimp only
  have h : Mild s ({ s with journal := { s.journal with low := decide (s.journal.free < s.tariffs.config.lowWater) } } : State) := ⟨rfl, PLe.refl _, rfl⟩
  split
  · exact h.trans (mild_notifyCF _ _)
  · exact h

theorem mild_handOver (s : State) (b) : Mild s (s.handOver b) := by
  unfold State.handOver; split
  · have h : Mild s ({ s with journal := { s.journal with queue := s.journal.queue ++ [s.formRecord b] } } : State) := ⟨rfl, PLe.refl _, rfl⟩
    exact h.trans (mild_updateLow _)
  · exact Mild.refl _

theorem mild_enterFiling (s : State) (sl o) : Mild s (s.enterFiling sl o) := by
  unfold State.enterFiling; exact ((mild_put _ _ _).trans (mild_handOver _ _)).trans (mild_enterStage _ _ _)

theorem mild_settle (s : State) (sl) : Mild s (s.settle sl) := by
  unfold State.settle; split
  · exact mild_enterFiling _ _ _
  · exact Mild.refl _

theorem mild_expirePayments (s : State) (sl) : Mild s (s.expirePayments sl) := by
  unfold State.expirePayments; dsimp only; split
  · split
    · exact ((mild_put _ _ _).trans (mild_notify _ _ _)).trans (mild_settle _ _)
    · exact (mild_put _ _ _).trans (mild_settle _ _)
  · exact Mild.refl _

theorem mild_expireClaim (s : State) (sl) : Mild s (s.expireClaim sl) := by
  unfold State.expireClaim; dsimp only; split
  · split
    · exact (((mild_put _ _ _).trans (mild_notify _ _ _)).trans (mild_notify _ _ _)).trans (mild_settle _ _)
    · exact Mild.refl _
  · exact Mild.refl _

theorem mild_expireSlot (s : State) (sl) : Mild s (s.expireSlot sl) := (mild_expirePayments _ _).trans (mild_expireClaim _ _)

theorem mild_expireBooking (s : State) (sl) : Mild s (s.expireBooking sl) := by
  unfold State.expireBooking; split
  · exact (mild_enterStage _ _ _).trans (mild_notifyCF _ _)
  · exact Mild.refl _

theorem mild_writeHire (s : State) (sl h) : Mild s (s.writeHire sl h) := by
  unfold State.writeHire; split
  · exact mild_put _ _ _
  · exact mild_enterStage _ _ _

theorem mild_beginSummary (s : State) : Mild s s.beginSummary := by
  unfold State.beginSummary; split
  · exact (mild_shift _ _).trans (mild_handOver _ _)
  · exact Mild.refl _

theorem mild_emptyBooked (s : State) (sl) : Mild s (s.emptyBooked sl) := by
  unfold State.emptyBooked; split
  · exact mild_enterStage _ _ _
  · exact Mild.refl _

/-! ### One slot at a time -/

theorem hires_handOver (s : State) (b) : (s.handOver b).hires = s.hires := by
  unfold State.handOver; split
  · rw [updateLow_only]
  · rfl

theorem hires_settle_other (s : State) {sl x} (h : x ≠ sl) : (s.settle sl).hire x = s.hire x := by
  unfold State.settle; split
  · unfold State.hire; rw [enterFiling_hires, hires_get_put_other _ _ h]
  · rfl

theorem hires_settle_same (s : State) (sl) : (s.settle sl).hire sl = if (s.hire sl).settled then (s.hire sl).filed .paid else s.hire sl := by
  unfold State.settle; split
  · unfold State.hire; rw [enterFiling_hires, hires_get_put_same]; rfl
  · rfl

theorem hire_putHire_other (s : State) {sl x} (h) (hx : x ≠ sl) : (s.putHire sl h).hire x = s.hire x := hires_get_put_other _ _ hx

theorem hire_notify (s : State) (p k sl) : (s.notify p k).hire sl = s.hire sl := rfl

theorem hire_expirePayments_other (s : State) {sl x} (h : x ≠ sl) : (s.expirePayments sl).hire x = s.hire x := by
  unfold State.expirePayments; dsimp only; split
  · split
    · rw [hires_settle_other _ h, hire_notify, hire_putHire_other _ _ h]
    · rw [hires_settle_other _ h, hire_putHire_other _ _ h]
  · rfl

theorem hire_expireClaim_other (s : State) {sl x} (h : x ≠ sl) : (s.expireClaim sl).hire x = s.hire x := by
  unfold State.expireClaim; dsimp only; split
  · split
    · rw [hires_settle_other _ h, hire_notify, hire_notify, hire_putHire_other _ _ h]
    · rfl
  · rfl

theorem hire_expireSlot_other (s : State) {sl x} (h : x ≠ sl) : (s.expireSlot sl).hire x = s.hire x := by
  unfold State.expireSlot; rw [hire_expireClaim_other _ h, hire_expirePayments_other _ h]

theorem hire_enterStage_other (s : State) {sl x} (y) (h : x ≠ sl) : (s.enterStage sl y).hire x = s.hire x := by
  unfold State.hire; rw [enterStage_hires, hires_get_put_other _ _ h]

theorem hire_enterStage_same (s : State) (sl y) : (s.enterStage sl y).hire sl = y := by
  unfold State.hire; rw [enterStage_hires, hires_get_put_same]

theorem hire_expireBooking_other (s : State) {sl x} (h : x ≠ sl) : (s.expireBooking sl).hire x = s.hire x := by
  unfold State.expireBooking; split
  · unfold State.notifyConsoleFleet; rw [hire_notify, hire_notify, hire_enterStage_other _ _ h]
  · rfl

theorem hire_expireBooking_not (s : State) {sl} (h : (s.hire sl).stage ≠ .booked) (x) : (s.expireBooking sl).hire x = s.hire x := by
  unfold State.expireBooking; rw [if_neg]; simp [State.bookingLapses, h]

theorem hire_writeHire_other (s : State) {sl x} (y) (h : x ≠ sl) : (s.writeHire sl y).hire x = s.hire x := by
  unfold State.writeHire; split
  · exact hire_putHire_other _ _ h
  · exact hire_enterStage_other _ _ h

theorem hire_writeHire_same (s : State) (sl y) : (s.writeHire sl y).hire sl = y := by
  unfold State.writeHire; split
  · exact hire_putHire_same _ _ _
  · exact hire_enterStage_same _ _ _

theorem hire_eachHire (s : State) (f) (sl) : (s.eachHire f).hire sl = f (s.hire sl) := by
  unfold State.eachHire
  cases sl
  · rw [hire_writeHire_other _ _ (by simp), hire_writeHire_other _ _ (by simp), hire_writeHire_same]; rfl
  · rw [hire_writeHire_other _ _ (by simp), hire_writeHire_same]; rfl
  · rw [hire_writeHire_same]; rfl

theorem mild_eachHire (s : State) (f) : Mild s (s.eachHire f) :=
  ((mild_writeHire _ _ _).trans (mild_writeHire _ _ _)).trans (mild_writeHire _ _ _)

/-! ### Filing on -/

/-- A filing that can go on moves the record in flight alone, and begins one when none is in flight (R121). -/
theorem fileOn_steady (s : State) (h : s.journal.steady) : ∃ x, s.fileOn = { s with journal := { s.journal with inFlight := x } }
    ∧ (s.journal.inFlight.isSome → x = s.journal.inFlight) ∧ (s.journal.queue = [] → x = s.journal.inFlight) ∧ (s.journal.inFlight = none → s.journal.queue ≠ [] → x = some ⟨s.journal.nextSeq, s.journal.writer⟩) := by
  unfold State.fileOn State.beginFiling
  split
  · rename_i h1 h2
    rcases h with h | h
    · rw [h1] at h; cases h
    · rw [if_pos (by simp [h.1, h.2])]; refine ⟨_, rfl, ?_, ?_, ?_⟩
      · intro h; rw [h1] at h; cases h
      · intro h; rw [h2] at h; cases h
      · intros; rfl
  · rename_i h1
    refine ⟨s.journal.inFlight, rfl, fun _ => rfl, fun _ => rfl, ?_⟩
    intro h2 h3
    cases hq : s.journal.queue with
    | nil => exact absurd hq h3
    | cons r rest => exact absurd hq (h1 r rest h2)

theorem fileOn_hire (s : State) (h : s.journal.steady) (sl) : s.fileOn.hire sl = s.hire sl := by
  obtain ⟨x, h1, _⟩ := fileOn_steady s h; rw [h1]; rfl

theorem fileOn_ports (s : State) (h : s.journal.steady) : s.fileOn.ports = s.ports := by
  obtain ⟨x, h1, _⟩ := fileOn_steady s h; rw [h1]

end Sys2Proof.Machine
end

