-- ==== Sys2Proof/Laws/Journal.lean ====
section
/-! SUPPORT. The journal's slots: what a write does to each, and that it keeps their one order. -/

namespace Sys2Proof.Machine

/-- A slot written reads as what was written. -/
theorem slotWrite_same (st : JournalStore) (n c) : slotRead (slotWrite st n c) n = some c := by
  induction st with
  | nil => simp [slotWrite, slotRead]
  | cons x rest ih =>
    obtain ⟨i, d⟩ := x; unfold slotWrite; split
    · simp [slotRead]
    · split
      · simp [slotRead]
      · rename_i h; simp [slotRead, h, ih]

/-- Every other slot reads as before. -/
theorem slotWrite_other (st : JournalStore) (n c m) (h : m ≠ n) : slotRead (slotWrite st n c) m = slotRead st m := by
  induction st with
  | nil => simp [slotWrite, slotRead, Ne.symm h]
  | cons x rest ih =>
    obtain ⟨i, d⟩ := x; unfold slotWrite; split
    · simp [slotRead, Ne.symm h]
    · split
      · rename_i h1 h2; subst h2; simp [slotRead, Ne.symm h]
      · simp [slotRead, ih]

theorem slotWrite_mem {st n c x} (h : x ∈ slotWrite st n c) : x.1 = n ∨ x ∈ st := by
  induction st with
  | nil => simp [slotWrite] at h; left; rw [h]
  | cons y r ih =>
    obtain ⟨i, d⟩ := y
    unfold slotWrite at h; split at h
    · simp at h ⊢; rcases h with h | h | h <;> simp [h]
    · split at h
      · simp at h; rcases h with h | h
        · left; rw [h]
        · right; simp [h]
      · simp at h; rcases h with h | h
        · right; simp [h]
        · rcases ih h with h | h
          · exact .inl h
          · right; simp [h]

/-- A write keeps the one order of the slots. -/
theorem slotWrite_canon (st n c) (h : storeCanonical st) : storeCanonical (slotWrite st n c) := by
  unfold storeCanonical at *
  induction st with
  | nil => simp [slotWrite]
  | cons y r ih =>
    obtain ⟨i, d⟩ := y
    have h1 := List.pairwise_cons.1 h
    unfold slotWrite; split
    · rename_i lt
      refine List.pairwise_cons.2 ⟨?_, h⟩
      intro z hz; simp at hz; rcases hz with hz | hz
      · subst hz; exact lt
      · have := h1.1 z hz; simp at this ⊢; omega
    · split
      · rename_i e
        refine List.pairwise_cons.2 ⟨?_, h1.2⟩
        intro z hz; have := h1.1 z hz; simp at this ⊢; omega
      · refine List.pairwise_cons.2 ⟨?_, ih h1.2⟩
        intro z hz
        rcases slotWrite_mem hz with e | hz
        · simp; omega
        · exact h1.1 z hz

/-- The store after reset is in its order. -/
theorem reset_store_canon : storeCanonical State.reset.journal.store := List.Pairwise.nil

/-- Slots taken out read as erased, and every other slot as before. -/
theorem slotRead_filter (st : JournalStore) (p : Nat → Bool) (n) : slotRead (st.filter (fun x => p x.1)) n = if p n = true then slotRead st n else none := by
  induction st with
  | nil => simp [slotRead]
  | cons x rest ih =>
    obtain ⟨i, c⟩ := x
    by_cases hp : p i = true
    · rw [List.filter_cons_of_pos (by exact hp)]
      unfold slotRead
      by_cases hi : i = n
      · subst hi; simp [hp]
      · rw [if_neg hi, if_neg hi]; exact ih
    · rw [List.filter_cons_of_neg (by exact hp), ih]
      by_cases hi : i = n
      · subst hi; simp [hp]
      · conv_rhs => unfold slotRead; rw [if_neg hi]

end Sys2Proof.Machine
end

