-- ==== Sys2Proof/Laws/StartUps.lean ====
section
/-! SUPPORT. The parts of a start-up that takes the retained state up, each said once: the sections loaded with the low mark under their
level, the pages an interrupted recovery had erased, and the order of the take-up. -/

namespace Sys2Proof.Machine

/-- With the sections loaded, the low mark is the one the level loaded calls for, and nothing but the ports moves beside it (R119, R125). -/
theorem levelLoaded_out (s : State) (u : StartUp) :
    ∃ q, ({ s with pins := u.lines, tariffs := s.tariffs.loaded u, shift := s.shift.storeLoaded u } : State).updateLowFrom
        s.tariffs.config.lowWater = { s with
      pins := u.lines
      tariffs := s.tariffs.loaded u
      shift := s.shift.storeLoaded u
      journal := { s.journal with
        low := (if (s.tariffs.loaded u).config.lowWater = s.tariffs.config.lowWater then s.journal.low
          else decide (s.journal.free < (s.tariffs.loaded u).config.lowWater)) }
      ports := q } :=
  ⟨_, updateLowFrom_out _ _⟩

/-- The pages an interrupted recovery had erased: one journal stands for the erasure in every state that holds this one and this Part
clear, it differs in its slots alone, and filing that could go on still can (R131). -/
theorem eraseLost_out (s : State) (erased : List Nat) :
    ∃ j : Journal, (∀ x : State, x.journal = s.journal → x.partClear = s.partClear → x.eraseLost erased = { x with journal := j })
      ∧ j = { s.journal with store := j.store }
      ∧ (s.partClear ≠ .recovering → j.store = s.journal.store)
      ∧ (s.partClear = .recovering → ∀ i, slotRead j.store i = if i / 16 ∈ erased then none else slotRead s.journal.store i)
      ∧ (s.journal.steady → j.steady) := by
  have hr : ∀ i, slotRead (s.journal.store.filter (fun x => !(erased.contains (x.1 / 16)))) i
      = if i / 16 ∈ erased then none else slotRead s.journal.store i := by
    intro i
    have h := slotRead_filter s.journal.store (fun i => !(erased.contains (i / 16))) i
    by_cases hi : i / 16 ∈ erased <;> simpa [hi] using h
  by_cases h : s.partClear = .recovering
  · refine ⟨{ s.journal with store := s.journal.store.filter (fun x => !(erased.contains (x.1 / 16))) }, ?_, rfl, fun n => absurd h n,
      fun _ => hr, ?_⟩
    · intro x hx hp
      unfold State.eraseLost
      rw [if_pos (hp.trans h), hx]
    · rintro (hs | ⟨h1, h2⟩)
      · exact .inl hs
      · refine .inr ⟨h1, ?_⟩
        unfold Journal.slotFree at h2 ⊢
        dsimp only
        rw [hr]
        by_cases hi : s.journal.writer.index / 16 ∈ erased
        · rw [if_pos hi]
          simp at h2 ⊢
          exact h2.1
        · rw [if_neg hi]
          exact h2
  · refine ⟨s.journal, ?_, rfl, fun _ => rfl, fun n => absurd n h, fun x => x⟩
    intro x hx hp
    unfold State.eraseLost
    rw [if_neg (by rw [hp]; exact h), ← hx]

/-- The take-up in its order: hires without their tariff, remainders below k, hires restored, the totalizer write, the filing (R191). -/
theorem takeUp_parts (x : State) (u : StartUp) (configBad tariffBad : Bool) {j : Journal} (h : x.eraseLost u.erased = { x with journal := j }) :
    ∃ s0 s1 s2 : State, s0 = { x with journal := j, partClear := .idle }
      ∧ s1 = (if tariffBad = true then { s0 with hires := s0.hires.map Hire.withoutTariff } else s0)
      ∧ s2 = (if configBad = true then s1.remaindersBelow else s1)
      ∧ x.takeUp u configBad tariffBad = ({ s2.restoreHires with shift := s2.restoreHires.shift.taken } : State).fileOn := by
  unfold State.takeUp
  rw [h]
  exact ⟨_, _, _, rfl, rfl, rfl, rfl⟩

end Sys2Proof.Machine
end

