-- ==== Sys2Proof/Laws/Ticks.lean ====
section
/-! SUPPORT. What a tick can do, said once: its work before the fare tick, and the fare work seen from one slot. -/

namespace Sys2Proof.Machine

/-- What the sign, the intercom and the alarm may do on a tick: touch themselves and add notices. -/
structure Soft (s t : State) : Prop where
  e : t = { s with sign := t.sign, intercom := t.intercom, alarm := t.alarm, ports := t.ports }
  p : PLe s.ports t.ports

theorem Soft.refl (s) : Soft s s := ⟨rfl, PLe.refl _⟩

theorem Soft.trans {s t u} (h : Soft s t) (g : Soft t u) : Soft s u := ⟨by rw [g.e, h.e], h.p.trans g.p⟩

theorem soft_notify (s : State) (p k) : Soft s (s.notify p k) := ⟨rfl, PLe_add _ _ _⟩

theorem soft_sign (s : State) (x) : Soft s { s with sign := x } := ⟨rfl, PLe.refl _⟩

theorem soft_icom (s : State) (x) : Soft s { s with intercom := x } := ⟨rfl, PLe.refl _⟩

theorem soft_full (s : State) : Soft s s.fullLevelChanged := by
  unfold State.fullLevelChanged; dsimp only; split <;> exact soft_sign _ _

theorem soft_signTick (s : State) (f) : Soft s (s.signTick f) := by
  have h1 : Soft s s.rampTick := by unfold State.rampTick; split; exact soft_sign _ _; exact Soft.refl _
  have h2 : ∀ (s : State) n, Soft s (s.readAmbient n) := by
    intro s n; unfold State.readAmbient; split
    · exact soft_sign _ _
    · split
      · exact (soft_sign s { s.sign with night := n, disagree := 0 }).trans (soft_full _)
      · exact soft_sign _ _
  have h3 : ∀ s : State, Soft s s.testTick := by
    intro s; unfold State.testTick; split
    · exact Soft.refl _
    · split
      · split
        · exact soft_sign _ _
        · exact (soft_sign s (s.sign.endTest s.fullLevel)).trans (soft_notify _ _ _)
      · exact soft_sign _ _
  have h4 : ∀ (s : State) b, Soft s (s.checkLamps b) := by
    intro s b; unfold State.checkLamps; dsimp only
    have a : Soft s ({ s with sign := { s.sign with lamps := s.sign.lamps.check b } } : State) := soft_sign _ _
    split <;> split
    · exact ((a.trans (soft_notify _ _ _)).trans (soft_notify _ _ _)).trans (soft_notify _ _ _)
    · exact a.trans (soft_notify _ _ _)
    · exact (a.trans (soft_notify _ _ _)).trans (soft_notify _ _ _)
    · exact a
  unfold State.signTick; dsimp only
  have h5 := (h1.trans (h2 s.rampTick s.pins.night)).trans (soft_sign _ ((s.rampTick.readAmbient s.pins.night).sign.flashTick (s.rampTick.readAmbient s.pins.night).fullLevel))
  split
  · exact (h5.trans (h3 _)).trans (h4 _ _)
  · exact h5.trans (h3 _)

theorem soft_icomTick (s : State) : Soft s s.intercomTick := by
  unfold State.intercomTick
  have h1 : ∀ (s : State) b, Soft s (s.readTalk b) := by intro s b; unfold State.readTalk; dsimp only; split <;> exact soft_icom _ _
  have h2 : ∀ (s : State) b, Soft s (s.readCall b) := by
    intro s b; unfold State.readCall; dsimp only; split
    · exact (soft_icom _ _).trans (soft_notify _ _ _)
    · exact soft_icom _ _
  exact (h1 _ _).trans (h2 _ _)

theorem soft_alarmTick (s : State) : Soft s s.alarmTick := by
  unfold State.alarmTick; dsimp only
  have a : ∀ (s : State) x, Soft s ({ s with alarm := x } : State) := fun s x => ⟨rfl, PLe.refl _⟩
  have b : ∀ s : State, Soft s s.alarmPress := by
    intro s; unfold State.alarmPress; split
    · unfold State.activate; refine Soft.trans ?_ (soft_notify _ _ _); exact ⟨rfl, PLe.refl _⟩
    · unfold State.pressAgain; refine Soft.trans ?_ (soft_notify _ _ _); exact ⟨rfl, PLe.refl _⟩
  split
  · exact (a s _).trans (b _)
  · exact a s _

/-- A tick up to its fare work: the lines read, then sign, intercom and alarm. -/
def preTick (l : Lines) (s : State) : State := ((State.signTick { s with pins := l, timeBase := s.nextCount } (State.fareNext { s with pins := s.pins })).intercomTick).alarmTick

/-- A tick is those, the fare work of a fare tick, and Part clear going on. -/
theorem tick_eq (l : Lines) (s : State) : s.tick l = ((if s.fareNext then (preTick l s).fareWork else preTick l s)).partClearOn := rfl

theorem soft_pre (l : Lines) (s : State) : Soft { s with pins := l, timeBase := s.nextCount } (preTick l s) :=
  ((soft_signTick _ _).trans (soft_icomTick _)).trans (soft_alarmTick _)

theorem pre_e (l : Lines) (s : State) : preTick l s = { s with pins := l, timeBase := s.nextCount, sign := (preTick l s).sign, intercom := (preTick l s).intercom, alarm := (preTick l s).alarm, ports := (preTick l s).ports } := (soft_pre l s).e

theorem partClearOn_idle (s : State) (h : s.partClear = .idle) : s.partClearOn = s := by
  unfold State.partClearOn; split
  · rw [h]
  · rfl

theorem fareWork_idle {s : State} (h : s.partClear = .idle) : s.fareWork.partClear = .idle := by
  rw [(kept_of_beyondFiling (fareWork_beyondFiling s)).2.2.2.2.2.2.2.2.2.2.2.2.2.1]; exact h

theorem expireBookings_mild (s : State) : Mild s s.expireBookings := ((mild_expireBooking _ _).trans (mild_expireBooking _ _)).trans (mild_expireBooking _ _)

theorem expireSettlements_mild (s : State) : Mild s s.expireSettlements := ((mild_expireSlot _ _).trans (mild_expireSlot _ _)).trans (mild_expireSlot _ _)

theorem fareWork_tick {l s} (h2 : s.fareNext = true) (h3 : s.partClear = .idle) : s.tick l = (preTick l s).fareWork := by
  rw [tick_eq, if_pos h2, partClearOn_idle]; apply fareWork_idle; rw [pre_e]; exact h3

/-- Work done slot by slot, seen from one slot. -/
theorem slot_decomp (op : State → SlotId → State) (hm : ∀ s x, Mild s (op s x)) (ho : ∀ s x y, y ≠ x → (op s x).hire y = s.hire y) (s : State) (sl : SlotId) :
    ∃ u v, Mild s u ∧ u.hire sl = s.hire sl ∧ v = op u sl ∧ Mild v (op (op (op s .a) .b) .c) ∧ (op (op (op s .a) .b) .c).hire sl = v.hire sl := by
  cases sl
  · exact ⟨s, _, Mild.refl _, rfl, rfl, (hm _ _).trans (hm _ _), by rw [ho _ _ _ (by simp), ho _ _ _ (by simp)]⟩
  · exact ⟨op s .a, _, hm _ _, ho _ _ _ (by simp), rfl, hm _ _, ho _ _ _ (by simp)⟩
  · exact ⟨op (op s .a) .b, _, (hm _ _).trans (hm _ _), by rw [ho _ _ _ (by simp), ho _ _ _ (by simp)], rfl, Mild.refl _, rfl⟩

theorem fareTick_not_running (n a) (h : Hire) (hr : h.running = false) : h.fareTick n a = h := by unfold Hire.fareTick; rw [if_neg (by simp [hr])]

/-- The fare work seen from one slot, while a filing can go on. -/
theorem fareWork_at {s : State} (hs : s.journal.steady) (sl : SlotId) :
    ∃ u v w x, Mild s u ∧ u.hire sl = (s.hire sl).fareTick s.hires.running s.tariffs.active ∧ v = u.expireBooking sl ∧ Mild v w ∧ w.hire sl = v.hire sl ∧ x = w.expireSlot sl
      ∧ PLe x.ports s.fareWork.ports ∧ s.fareWork.hire sl = x.hire sl := by
  obtain ⟨u, v, h1, h2, h3, h4, h5⟩ := slot_decomp State.expireBooking mild_expireBooking (fun s x y h => hire_expireBooking_other s h) s.fareTickHires sl
  obtain ⟨w, x, g1, g2, g3, g4, g5⟩ := slot_decomp State.expireSlot mild_expireSlot (fun s x y h => hire_expireSlot_other s h) s.fareTickHires.expireBookings sl
  have m0 : Mild s s.fareTickHires := mild_eachHire _ _
  have hst : (s.fareTickHires.expireBookings.expireSettlements).journal.steady := by
    rw [((m0.trans (expireBookings_mild _)).trans (expireSettlements_mild _)).j.steady]; exact hs
  refine ⟨u, v, w, x, m0.trans h1, ?_, h3, h4.trans g1, g2.trans h5, g3, ?_, ?_⟩
  · rw [h2]; exact hire_eachHire _ _ _
  · unfold State.fareWork; rw [fileOn_ports _ hst]; exact g4.p
  · unfold State.fareWork; rw [fileOn_hire _ hst]; exact g5

theorem mk_tickWith {f : State → Bool} {l s} (hr : s.power = .running) (h : f s = true) : tickWith f l s = s.tick l := by
  unfold tickWith; rw [if_pos h, whenRunning_eq hr]

end Sys2Proof.Machine
end

