-- ==== Sys2Proof/Laws/Unfiled.lean ====
section
/-! SUPPORT. Filing that finds no slot (R124): what each record that goes to the unfiled list moves, and what a queue of HIRE records does
as one after another goes there. -/

namespace Sys2Proof.Machine

/-- The journal moves by its queue, its low mark and its unfiled list alone. -/
def MovedByFiling (j k : Journal) : Prop := k = { j with queue := k.queue, low := k.low, unfiled := k.unfiled }

theorem MovedByFiling.trans {i j k} (h : MovedByFiling i j) (g : MovedByFiling j k) : MovedByFiling i k := by
  unfold MovedByFiling at *; rw [g, h]

/-- Nothing is being filed and a record would find no slot. -/
def NoPlace (j : Journal) : Prop := j.inFlight = none ∧ (j.writingOpen && j.slotFree j.writer) = false

theorem MovedByFiling.noPlace {j k} (h : MovedByFiling j k) (s : NoPlace j) : NoPlace k := by rw [h]; exact s

/-- The shift's number, driver and times are kept. -/
def ShiftHeld (x y : ShiftAccounting) : Prop :=
  y.number = x.number ∧ y.driver = x.driver ∧ y.openTime = x.openTime ∧ y.closeTime = x.closeTime

/-- A filing's accounting keeps the shift's state, number, driver and times. -/
theorem filed_held (x : ShiftAccounting) (h : Hire) :
    (x.fileHire h).askTotals.state = x.state ∧ (x.fileHire h).askTotals.summary = x.summary ∧ ShiftHeld x (x.fileHire h).askTotals := by
  have a : (x.fileHire h).state = x.state ∧ (x.fileHire h).summary = x.summary ∧ ShiftHeld x (x.fileHire h) := by
    unfold ShiftHeld ShiftAccounting.fileHire ShiftAccounting.addFiled ShiftAccounting.count; refine ⟨rfl, rfl, rfl, rfl, rfl, rfl⟩
  generalize x.fileHire h = y at *
  rw [(askTotals_parts y).1]; exact a

theorem completeShift_journal (s : State) : s.completeShift.journal = s.journal := by
  unfold State.completeShift State.askTotals; dsimp only; rw [rederive_only]; rfl

/-- With no slot the head of the queue goes unfiled and the filing goes on. -/
theorem beginFiling_noPlace (n) (x : State) (r rest) (hs : NoPlace x.journal) (hq : x.journal.queue = r :: rest) :
    x.beginFiling (n + 1) = (x.noSlot r rest).beginFiling n := by
  rw [State.beginFiling, hs.1, hq]; dsimp only; rw [hs.2]; simp

/-- With nothing queued there is nothing to file. -/
theorem beginFiling_nothing (n) (x : State) (hq : x.journal.queue = []) : x.beginFiling n = x := by
  cases n with
  | zero => rfl
  | succ n => unfold State.beginFiling; rw [hq]; cases x.journal.inFlight <;> rfl

/-- A HIRE record that finds no slot is unfiled and its hire complete; the last hire of a CLOSING shift brings the SHIFT record. -/
theorem noSlot_hire (x : State) (r : JournalRecord) (rest) (h : HireRecord) (hr : r.body = .hire h) :
    ∃ y, y = x.noSlot r rest ∧ MovedByFiling x.journal y.journal ∧ y.hires = x.hires.put h.slot Hire.cleared ∧ y.clock = x.clock ∧ ShiftHeld x.shift y.shift
      ∧ y.shift.state = x.shift.state
      ∧ y.journal.unfiled = x.journal.unfiled ++ [r]
      ∧ ((x.shift.state = .closing ∧ x.shift.summary = false ∧ (x.hires.put h.slot Hire.cleared).allFree = true) →
          y.journal.queue = rest ++ [⟨x.shift.number, x.clock, .shift (x.shift.driver.getD 0) (x.shift.openTime.getD x.clock) (x.shift.closeTime.getD x.clock) y.shift.counters⟩])
      ∧ (¬(x.shift.state = .closing ∧ x.shift.summary = false ∧ (x.hires.put h.slot Hire.cleared).allFree = true) →
          y.journal.queue = rest ∧ y.shift.summary = x.shift.summary) := by
  obtain ⟨u, hu⟩ : ∃ u, u = (({ x with journal := { x.journal with queue := rest, unfiled := x.journal.unfiled ++ [r] } } : State).updateLow) := ⟨_, rfl⟩
  have huj : u.journal = { x.journal with queue := rest, unfiled := x.journal.unfiled ++ [r], low := u.journal.low } := by rw [hu, updateLow_journal]
  have huo : u = { x with journal := u.journal, ports := u.ports } := by rw [hu]; exact updateLow_only _
  have huh : u.hires = x.hires := by rw [huo]
  have hus : u.shift = x.shift := by rw [huo]
  have huc : u.clock = x.clock := by rw [huo]
  have he : x.noSlot r rest = u.completeHire h.slot := by
    unfold State.noSlot; rw [hr, hu]; rfl
  -- the completion before its summary
  obtain ⟨z, hz⟩ : ∃ z : State, z = State.askTotals (State.enterStage { u with shift := u.shift.fileHire (u.hire h.slot) } h.slot Hire.cleared) := ⟨_, rfl⟩
  have hcz : u.completeHire h.slot = z.beginSummary := by rw [hz]; rfl
  have zj : z.journal = u.journal := by
    rw [hz]; exact (kept_of_beyondStage (enterStage_beyondStage { u with shift := u.shift.fileHire (u.hire h.slot) } h.slot Hire.cleared)).2
  have zh : z.hires = x.hires.put h.slot Hire.cleared := by
    rw [hz, ← huh]; exact enterStage_hires { u with shift := u.shift.fileHire (u.hire h.slot) } h.slot Hire.cleared
  have zs : z.shift = (u.shift.fileHire (u.hire h.slot)).askTotals := by
    have := (kept_of_beyondStage (enterStage_beyondStage { u with shift := u.shift.fileHire (u.hire h.slot) } h.slot Hire.cleared)).1
    rw [hz]; unfold State.askTotals; dsimp only; rw [this]
  have zc : z.clock = x.clock := by
    have h9 := congrArg State.clock (enterStage_beyondStage { u with shift := u.shift.fileHire (u.hire h.slot) } h.slot Hire.cleared)
    rw [hz, ← huc]; exact h9
  have zf : z.shift.state = x.shift.state ∧ z.shift.summary = x.shift.summary ∧ ShiftHeld x.shift z.shift := by
    rw [zs, hus]; exact filed_held _ _
  refine ⟨_, rfl, ?_⟩
  rw [he, hcz]
  by_cases hc : x.shift.state = .closing ∧ x.shift.summary = false ∧ (x.hires.put h.slot Hire.cleared).allFree = true
  · have hb : z.beginSummary = ({ z with shift := { z.shift with summary := true }, journal := { z.journal with queue := z.journal.queue ++ [⟨z.shift.number, z.clock, z.shiftBody⟩] } } : State).updateLow := by
      unfold State.beginSummary; rw [if_pos (by rw [zf.1, zf.2.1, zh]; exact hc)]; exact handOver_shift _ _ _ _ _
    have h1 := updateLow_only ({ z with shift := { z.shift with summary := true }, journal := { z.journal with queue := z.journal.queue ++ [⟨z.shift.number, z.clock, z.shiftBody⟩] } } : State)
    have h2 := updateLow_journal ({ z with shift := { z.shift with summary := true }, journal := { z.journal with queue := z.journal.queue ++ [⟨z.shift.number, z.clock, z.shiftBody⟩] } } : State)
    rw [← hb] at h1 h2
    have ej : MovedByFiling x.journal z.beginSummary.journal := by unfold MovedByFiling; rw [h2]; dsimp only; rw [zj, huj]
    refine ⟨ej, by rw [h1]; exact zh, by rw [h1]; exact zc, by rw [h1]; exact zf.2.2, by rw [h1]; exact zf.1, ?_, ?_, fun n => absurd hc n⟩
    · rw [h2]; dsimp only; rw [zj, huj]
    · intro _; rw [h2]; dsimp only; rw [zj, huj]; dsimp only
      rw [h1]; dsimp only; unfold State.shiftBody
      rw [zf.2.2.1, zf.2.2.2.1, zf.2.2.2.2.1, zf.2.2.2.2.2, zc]
  · have hb : z.beginSummary = z := by unfold State.beginSummary; rw [if_neg (by rw [zf.1, zf.2.1, zh]; exact hc)]
    rw [hb]
    have ej : MovedByFiling x.journal z.journal := by unfold MovedByFiling; rw [zj, huj]
    refine ⟨ej, zh, zc, zf.2.2, zf.1, by rw [zj, huj], fun n => absurd n hc, fun _ => ⟨by rw [zj, huj], zf.2.1⟩⟩

/-- A SHIFT record that finds no slot is unfiled and its shift CLOSED. -/
theorem noSlot_shift (x : State) {r : JournalRecord} {rest : List JournalRecord} {d o c k} (hr : r.body = .shift d o c k) :
    MovedByFiling x.journal (x.noSlot r rest).journal ∧ (x.noSlot r rest).hires = x.hires ∧ (x.noSlot r rest).shift.state = .closed
      ∧ (x.noSlot r rest).shift.counters = x.shift.counters
      ∧ (x.noSlot r rest).journal.unfiled = x.journal.unfiled ++ [r] ∧ (x.noSlot r rest).journal.queue = rest := by
  obtain ⟨u, hu⟩ : ∃ u, u = (({ x with journal := { x.journal with queue := rest, unfiled := x.journal.unfiled ++ [r] } } : State).updateLow) := ⟨_, rfl⟩
  have huj : u.journal = { x.journal with queue := rest, unfiled := x.journal.unfiled ++ [r], low := u.journal.low } := by rw [hu, updateLow_journal]
  have huo : u = { x with journal := u.journal, ports := u.ports } := by rw [hu]; exact updateLow_only _
  have he : x.noSlot r rest = u.completeShift := by
    unfold State.noSlot; rw [hr, hu]; rfl
  have hcs : u.completeShift.shift = { u.shift with state := .closed, summary := false }.askTotals ∧ u.completeShift.hires = u.hires := by
    unfold State.completeShift State.askTotals; dsimp only; rw [rederive_only]; exact ⟨rfl, rfl⟩
  rw [he, completeShift_journal]
  refine ⟨by unfold MovedByFiling; rw [huj], by rw [hcs.2, huo], ?_, ?_, by rw [huj], by rw [huj]⟩
  · rw [hcs.1, (askTotals_parts _).1]
  · rw [hcs.1, (askTotals_parts _).1, huo]

/-- HIRE records that find no slot go unfiled one after another, their slots FREE; the last of a CLOSING shift is followed by the SHIFT
record. -/
theorem unfiled_one_after_another (f : SlotId → JournalRecord) (g : SlotId → HireRecord) (hf : ∀ sl, (f sl).body = .hire (g sl)) (hg : ∀ sl, (g sl).slot = sl) :
    ∀ (ps : List SlotId) (x : State) (n : Nat), ps.Nodup → NoPlace x.journal → x.journal.queue = ps.map f → (∀ sl ∈ ps, (x.hire sl).stage ≠ .free) →
      ps.length + 1 ≤ n → ∃ y, y = x.beginFiling n ∧ MovedByFiling x.journal y.journal ∧ y.journal.queue = []
      ∧ (∀ sl, sl ∈ ps → y.hire sl = Hire.cleared) ∧ (∀ sl, sl ∉ ps → y.hire sl = x.hire sl)
      ∧ (x.shift.state ≠ .closing ∨ x.shift.summary = true ∨ ps = [] ∨ (∃ sl, sl ∉ ps ∧ (x.hire sl).stage ≠ .free) →
          y.journal.unfiled = x.journal.unfiled ++ ps.map f ∧ y.shift.state = x.shift.state)
      ∧ (x.shift.state = .closing → x.shift.summary = false → ps ≠ [] → (∀ sl, sl ∉ ps → (x.hire sl).stage = .free) →
          y.journal.unfiled = x.journal.unfiled ++ ps.map f
            ++ [⟨x.shift.number, x.clock, .shift (x.shift.driver.getD 0) (x.shift.openTime.getD x.clock) (x.shift.closeTime.getD x.clock) y.shift.counters⟩]
          ∧ y.shift.state = .closed) := by
  intro ps; induction ps with
  | nil =>
    intro x n _ _ hq _ _
    refine ⟨x, (beginFiling_nothing n x hq).symm, rfl, hq, fun _ h => absurd h (by simp), fun _ _ => rfl, fun _ => ⟨by simp, rfl⟩, fun _ _ h => absurd rfl h⟩
  | cons sl rest ih =>
    intro x n hnd hs hq hh hn
    obtain ⟨m, rfl⟩ : ∃ m, n = m + 1 := ⟨n - 1, by simp at hn; omega⟩
    have hb := beginFiling_noPlace m x (f sl) (rest.map f) hs hq
    obtain ⟨y, hy, yj, yh, yc, ys, yst, yu, yq1, yq2⟩ := noSlot_hire x (f sl) (rest.map f) (g sl) (hf sl)
    rw [hg] at yh yq1 yq2
    rw [← hy] at hb
    have yhs : y.hire sl = Hire.cleared := by unfold State.hire; rw [yh, hires_get_put_same]
    have yho : ∀ o, o ≠ sl → y.hire o = x.hire o := by intro o ho; unfold State.hire; rw [yh, hires_get_put_other _ _ ho]
    have hfree : (x.hires.put sl Hire.cleared).allFree = true ↔ ∀ o, o ≠ sl → (x.hire o).stage = .free := by
      rw [allFree_iff]
      constructor
      · intro h o ho; have := h o; rw [hires_get_put_other _ _ ho] at this; exact this
      · intro h o; by_cases ho : o = sl
        · subst ho; rw [hires_get_put_same]; rfl
        · rw [hires_get_put_other _ _ ho]; exact h o ho
    have ys' := yj.noPlace hs
    by_cases hc : x.shift.state = .closing ∧ x.shift.summary = false ∧ (x.hires.put sl Hire.cleared).allFree = true
    · -- the last hire of a closing shift
      have hrest : rest = [] := by
        cases rest with
        | nil => rfl
        | cons o r2 =>
          have ho : o ≠ sl := by rintro rfl; simp at hnd
          exact absurd (hfree.1 hc.2.2 o ho) (hh o (by simp))
      subst hrest
      obtain ⟨m, rfl⟩ : ∃ k, m = k + 1 := ⟨m - 1, by simp at hn; omega⟩
      have hq2 := yq1 hc
      simp only [List.map_nil, List.nil_append] at hq2
      have hb2 := beginFiling_noPlace m y _ [] ys' hq2
      have sh := noSlot_shift y (rest := []) (r := ⟨x.shift.number, x.clock, .shift (x.shift.driver.getD 0) (x.shift.openTime.getD x.clock) (x.shift.closeTime.getD x.clock) y.shift.counters⟩) rfl
      rw [hb, hb2, beginFiling_nothing _ _ sh.2.2.2.2.2]
      refine ⟨_, rfl, yj.trans sh.1, sh.2.2.2.2.2, ?_, ?_, ?_, ?_⟩
      · intro o ho; simp at ho; subst ho; unfold State.hire; rw [sh.2.1]; exact yhs
      · intro o ho; simp at ho; unfold State.hire; rw [sh.2.1]; exact yho o ho
      · rintro (h | h | h | ⟨o, ho, h⟩)
        · exact absurd hc.1 h
        · rw [hc.2.1] at h; cases h
        · cases h
        · simp at ho; exact absurd (hfree.1 hc.2.2 o ho) h
      · intro _ _ _ _
        rw [sh.2.2.2.2.1, yu, sh.2.2.2.1]; exact ⟨rfl, sh.2.2.1⟩
    · obtain ⟨q1, q2⟩ := yq2 hc
      have hnd2 : sl ∉ rest ∧ rest.Nodup := by simpa using hnd
      obtain ⟨w, hw, wj, wq, wh1, wh2, w1, w2⟩ := ih y m hnd2.2 ys' q1 (fun o ho => by rw [yho o (by rintro rfl; exact hnd2.1 ho)]; exact hh o (by simp [ho])) (by simp at hn ⊢; omega)
      rw [hb, ← hw]
      refine ⟨w, rfl, yj.trans wj, wq, ?_, ?_, ?_, ?_⟩
      · intro o ho; rcases List.mem_cons.1 ho with e | e
        · subst e; rw [wh2 _ hnd2.1]; exact yhs
        · exact wh1 o e
      · intro o ho; simp at ho; rw [wh2 o ho.2]; exact yho o ho.1
      · intro h
        have : y.shift.state ≠ .closing ∨ y.shift.summary = true ∨ rest = [] ∨ (∃ sl, sl ∉ rest ∧ (y.hire sl).stage ≠ .free) := by
          rw [yst, q2]
          rcases h with h | h | h | ⟨o, ho, h⟩
          · exact .inl h
          · exact .inr (.inl h)
          · cases h
          · simp at ho; refine .inr (.inr (.inr ⟨o, ho.2, ?_⟩)); rw [yho o ho.1]; exact h
        obtain ⟨a, b⟩ := w1 this
        rw [a, b, yu, yst]; simp
      · intro h1 h2 _ h4
        have hne : rest ≠ [] := by
          rintro rfl
          exact hc ⟨h1, h2, hfree.2 (fun o ho => h4 o (by simpa using ho))⟩
        obtain ⟨a, b⟩ := w2 (by rw [yst]; exact h1) (by rw [q2]; exact h2) hne (by
          intro o ho; by_cases e : o = sl
          · subst e; rw [yhs]; rfl
          · rw [yho o e]; exact h4 o (by simp [e, ho]))
        rw [a, b, yu, ys.1, ys.2.1, ys.2.2.1, ys.2.2.2, yc]; simp

/-- A settlement check may queue one HIRE record (R19, R21). -/
theorem settle_queue (s : State) (sl) : MovedByFiling s.journal (s.settle sl).journal ∧ (s.settle sl).journal.unfiled = s.journal.unfiled
    ∧ (s.settle sl).journal.queue = s.journal.queue ++ (if (s.hire sl).settled then [⟨s.shift.number, s.clock, .hire (((s.hire sl).filed .paid).record sl)⟩] else [])
    ∧ (s.settle sl).clock = s.clock := by
  unfold State.settle; split
  · have h9 := congrArg State.clock ((mild_enterFiling s sl .paid).b)
    exact ⟨by unfold MovedByFiling; rw [enterFiling_journal], by rw [enterFiling_journal], by rw [enterFiling_journal], h9⟩
  · exact ⟨rfl, rfl, by simp, rfl⟩

end Sys2Proof.Machine
end

