-- ==== Sys2Proof/Tests/Slice0.lean ====
section
/-! SUPPORT. Tests of the model's own: ill-formed commands, worked values of the manual, single steps, and for every statement that
has hypotheses a state and operands that meet them. -/

namespace Sys2Proof.Tests

open Sys2Proof.Machine

/-! ### Helpers -/

/-- Monday 2 June 2025, 10:00:00. -/
def now : ClockTime := ⟨2025, 6, 2, 1, 10, 0, 0⟩

/-- A part that has its clock. -/
def up : State := { State.reset with clock := now, clockStatus := .set }

/-- A tariff of one COMBINED band: 300 at flag fall, 100 m or 20 s for 10 cents, an initial distance of 1000 m. -/
def tariff : Tariff := ⟨.metered, true, 300, 1000, 0, 60, 45, [⟨0, 100, 200, 10, .combined⟩]⟩

/-- An extra of 200 cents, two at most, also after the stop. -/
def extra : ExtraEntry := ⟨200, 2, true⟩

/-- A set with that tariff at id 1, an entry for every day from minute 0 at index 0, and that extra at id 1. -/
def tariffs : TariffSet :=
  ⟨(some tariff) :: List.replicate 7 none, (some ⟨127, 0, 1⟩) :: List.replicate 31 none, (some extra) :: List.replicate 7 none⟩

/-- A part with a tariff in use. -/
def ready : State := { up with tariffs := { up.tariffs with active := tariffs } }

/-- A part with an OPEN shift under a ceiling of 1000 cents. -/
def onShift : State :=
  { ready with
    shift := { ready.shift with state := .opened, number := 1, driver := some 7, openTime := some now, ceiling := 1000 } }

/-- A hire METERING in tariff 1. -/
def ride : Hire :=
  { Hire.cleared with stage := .metering, number := some 1, tariffId := 1, band := 1, flagFall := 300, metered := 300, startTime := now }

/-- A hire SUSPENDED by the driver. -/
def waitingRide : Hire := { ride with stage := .suspended, suspendReason := some .driver, resumeStage := some .metering }

/-- A STOPPED hire. -/
def ended : Hire := { ride with stage := .stopped, stopTime := some now }

/-- A STOPPED hire with a claim of the Payment port that lasts to a count. -/
def claimedTo (n : Nat) : Hire := { ended with claim := some ⟨.payment, n⟩ }

/-- A payment entry of the Payment port. -/
def entryOf (m : PayMethod) (amount : Nat) (st : PayState) : Payment := ⟨m, amount, 0, none, none, st, .payment, some 9000, false⟩

/-- An OPEN shift with a hire in slot A. -/
def aboard (h : Hire) : State := onShift.putHire .a h

/-- A port is ready in a state that runs and has no reply outstanding. -/
theorem ready_onShift (p : PortId) : Ready onShift p := by cases p <;> exact ⟨rfl, rfl⟩

/-- Every port is ready with a hire aboard. -/
theorem ready_aboard (h : Hire) (p : PortId) : Ready (aboard h) p := by cases p <;> exact ⟨rfl, rfl⟩

/-- Lines at rest, one of them changed. -/
def linesAlarm : Lines := { Lines.reset with alarm := true }

/-- Lines by night. -/
def linesNight : Lines := { Lines.reset with night := true }

/-- The facts of a start-up that finds everything sound. -/
def soundStart : StartUp := ⟨true, true, true, true, false, false, false, .untouched, [], Lines.reset⟩

/-! ### Commands that cannot be sent -/

theorem test_load_payload_of_240_is_well_formed : (Instr.load .fleet 0 (List.replicate 240 0)).wellFormed = true := by
  decide +kernel

theorem test_load_payload_of_241_is_ill_formed : (Instr.load .fleet 0 (List.replicate 241 0)).wellFormed = false := by
  decide +kernel

theorem test_compare_payload_of_241_is_ill_formed : (Instr.compare .fleet 0 (List.replicate 241 0)).wellFormed = false := by
  decide +kernel

theorem test_payment_expired_entries_run_from_1_to_4 :
    (Instr.paymentExpired .a 0 Lines.reset).wellFormed = false ∧ (Instr.paymentExpired .a 1 Lines.reset).wellFormed = true
      ∧ (Instr.paymentExpired .a 4 Lines.reset).wellFormed = true ∧ (Instr.paymentExpired .a 5 Lines.reset).wellFormed = false := by
  decide

theorem test_recovery_pages_rise_and_exist :
    (Instr.journalRecoveryEnd [3, 255]).wellFormed = true ∧ (Instr.journalRecoveryEnd [3, 3]).wellFormed = false
      ∧ (Instr.journalRecoveryEnd [256]).wellFormed = false := by
  decide

theorem test_erased_pages_rise_and_exist :
    (Instr.freezeExit { soundStart with erased := [1, 0] }).wellFormed = false
      ∧ (Instr.powerOn { soundStart with erased := [256] }).wellFormed = false
      ∧ (Instr.powerOn soundStart).wellFormed = true := by
  decide

/-! ### The interface -/

theorem test_no_row_gives_bits : decodeTableWord 8 0 = none ∧ decodeTableWord 32 5 = none := by decide

theorem test_fetch_word_changes_nothing : State.withFetchWord up 8 0 = up := by decide

theorem test_empty_queue_idles : step State.reset = .next State.reset := rfl

theorem test_step_runs_the_front :
    step { up with pending := [.rtcSecond, .wheelPulse] } = exec .rtcSecond { up with pending := [.wheelPulse] } := rfl

theorem test_reset_is_a_start_without_retention : State.reset.startUp false soundStart = State.reset := by decide +kernel

/-! ### Worked values of the manual -/

theorem test_crc_check_value : crc16 [0x31, 0x32, 0x33, 0x34, 0x35, 0x36, 0x37, 0x38, 0x39] = 0x29B1 := by decide +kernel

theorem test_last_second_of_2099_returns_to_2000 :
    ({ up with clock := ⟨2099, 12, 31, 4, 23, 59, 59⟩ } : State).secondOn.clock = ClockTime.first := by decide

theorem test_leap_day :
    ({ up with clock := ⟨2024, 2, 28, 3, 23, 59, 59⟩ } : State).secondOn.clock = ⟨2024, 2, 29, 4, 0, 0, 0⟩ := by decide

theorem test_share_residue : (ride.charge 25 60).metered = 315 ∧ (ride.charge 25 60).residue = 0 ∧ (ride.charge 25 45).residue = 25 := by
  decide

/-! ### Witnesses: the hypotheses of each statement can be met -/

/-- An empty queue. -/
theorem witness_StepRunsTheFrontCommand :
    up.pending = [] := by
  decide

/-- A failing part; a port with an unread reply; a ready port with a kind that is not offered, a wrong and a right length. -/
theorem witness_PortRefusesInTheOrderOfTheSteps :
    ({ up with power := .failing } : State).power = .failing
      ∧ up.power = .running
      ∧ ((up.putPort .fleet { up.port .fleet with reply := [emptyFrame] }).port .fleet).outstanding = true
      ∧ kindOf Kind.readShift.byte ≠ some Kind.null
      ∧ Ready up .console
      ∧ kindOf 0xFF = none
      ∧ Ready up .fleet
      ∧ kindOf Kind.readShift.byte = some Kind.readShift
      ∧ Kind.readShift ≠ Kind.null
      ∧ Kind.offered .readShift .fleet = true
      ∧ Kind.lengthFits .readShift [0] = false
      ∧ Kind.lengthFits .readShift [] = true
      ∧ up.power ≠ .frozen := by
  repeat' apply And.intro
  all_goals decide

/-- A kind that the Console port is not offered. -/
theorem witness_kind_not_offered : ∀ k, kindOf Kind.book.byte = some k → k.offered .console = false := by
  intro k h
  rw [show kindOf Kind.book.byte = some Kind.book by decide] at h
  cases h
  rfl

/-- A payload of 240 bytes, check bytes that do not agree, a length byte of 241, a frame in progress and none. -/
theorem witness_FramesAreBuiltAndTaken :
    up.power ≠ .frozen
      ∧ (List.replicate 240 (0 : Byte)).length ≤ 240
      ∧ ([0, 0] : List Byte) ≠ be2 (crc16 [1, 2, 0, 0]).toNat
      ∧ 240 < (241 : Byte).toNat
      ∧ ((up.setReceive .fleet (some [1])).port .fleet).receive = some [1]
      ∧ (up.port .fleet).receive = none
      ∧ (∀ k, progress ([1] ++ ([2, 0] : List Byte).take (k + 1)) = .more)
      ∧ (∀ k, progress (([2, 0] : List Byte).take (k + 1)) = .more) := by
  refine ⟨by decide, by decide +kernel, by decide +kernel, by decide, by decide, by decide, ?_, ?_⟩
  all_goals
    intro k
    unfold progress
    rw [if_pos]
    simp
    omega

/-- Frames that a WRITE-CONTINUE carries to their end: sound, with check bytes that do not agree, and with a length of 241; first bytes. -/
theorem witness_frames_carried_to_their_end :
    ((up.setReceive .fleet (some [1])).port .fleet).receive = some [1]
      ∧ [1] ++ ([2, 0, 0] ++ be2 (crc16 [1, 2, 0, 0]).toNat ++ [9]) = ([1, 2, 0, 0] ++ be2 (crc16 [1, 2, 0, 0]).toNat) ++ [9]
      ∧ [1] ++ [2, 0, 0, 0, 0, 9] = ([1, 2, 0, 0] ++ [0, 0]) ++ ([9] : List Byte)
      ∧ [1] ++ [2, 0, 241, 9] = 1 :: 2 :: 0 :: 241 :: ([9] : List Byte)
      ∧ (0 : Byte) = 0
      ∧ 4 < (5 : Byte).toNat := by
  repeat' apply And.intro
  all_goals decide +kernel

/-- A refusal frame and a reply frame clocked out whole and short, and nothing to read. -/
theorem witness_FramesAreReadRepeatedAndDiscarded :
    up.power ≠ .frozen
      ∧ ((up.putPort .fleet { up.port .fleet with refusal := some emptyFrame }).port .fleet).refusal = some emptyFrame
      ∧ emptyFrame.bytes.length ≤ 6
      ∧ ((up.putPort .fleet { up.port .fleet with reply := [emptyFrame] }).port .fleet).refusal = none
      ∧ ((up.putPort .fleet { up.port .fleet with reply := [emptyFrame] }).port .fleet).reply[0]? = some emptyFrame
      ∧ ((up.putPort .fleet { up.port .fleet with reply := [emptyFrame] }).port .fleet).nextFrame = some emptyFrame
      ∧ 5 < emptyFrame.bytes.length
      ∧ (up.port .fleet).nextFrame = none
      ∧ up.power = .running
      ∧ ({ up with power := .failing } : State).power = .failing := by
  repeat' apply And.intro
  all_goals decide

/-- A ready port, a bit of the mask, and the empty mask. -/
theorem witness_AckNoticesRemovesTheKindsOfItsMask :
    Ready up .payment
      ∧ 31 < 32
      ∧ (0 : Word) = 0 := by
  repeat' apply And.intro
  all_goals decide

/-- A ready port without a snapshot and with one, at the indexes 0, 14, 15, 19 and 20. -/
theorem witness_MasksAndSnapshotsAreKeptPerPort :
    Ready up .console
      ∧ Kind.offered .readShift .console = true
      ∧ (up.port .console).snapshot = none
      ∧ ((up.putPort .console { up.port .console with snapshot := some up.shift.latched }).port .console).snapshot = some up.shift.latched
      ∧ Ready (up.putPort .console { up.port .console with snapshot := some up.shift.latched }) .console
      ∧ (0 : Byte).toNat < 15
      ∧ (14 : Byte).toNat < 15
      ∧ ¬(15 : Byte).toNat < 15
      ∧ (19 : Byte).toNat < 20
      ∧ 20 ≤ (20 : Byte).toNat := by
  repeat' apply And.intro
  all_goals decide

/-- Ready Fleet and Console ports and the first and last indicator. -/
theorem witness_IndicatorsFollowTheirMasks :
    Ready up .fleet
      ∧ Ready up .console
      ∧ 0 < 4
      ∧ 3 < 4 := by
  repeat' apply And.intro
  all_goals decide

/-- A hire that is settled, and one that fails each condition. -/
theorem witness_StageChangesAndTheSettlementCheck :
    ((aboard { ended with payments := [entryOf .card 300 .approved] }).hire .a).stage = .stopped
      ∧ ({ ended with payments := [entryOf .card 300 .approved] } : Hire).claim = none
      ∧ (∀ e ∈ ({ ended with payments := [entryOf .card 300 .approved] } : Hire).payments, e.state ≠ .pending)
      ∧ ({ ended with payments := [entryOf .card 300 .approved] } : Hire).balance = 0
      ∧ (∃ e ∈ ({ ended with payments := [entryOf .card 300 .approved] } : Hire).payments, e.state = .approved)
      ∧ ride.stage ≠ .stopped
      ∧ (claimedTo 9000).claim.isSome
      ∧ (∃ e ∈ ({ ended with payments := [entryOf .card 300 .pending] } : Hire).payments, e.state = .pending)
      ∧ ended.balance ≠ 0
      ∧ (∀ e ∈ ended.payments, e.state ≠ .approved) := by
  repeat' apply And.intro
  all_goals decide

/-- A CLOSING shift whose last hire is filed, and an OPEN one. -/
theorem witness_FiledRecordsAreAccounted :
    ({ onShift with shift := { onShift.shift with state := .closing } } : State).shift.state = .closing
      ∧ ({ onShift with shift := { onShift.shift with state := .closing } } : State).shift.summary = false
      ∧ ((aboard { ride with stage := .filing }).hires.put .a Hire.cleared).allFree = true
      ∧ onShift.shift.state ≠ .closing
      ∧ CountersLaw onShift.shift
      ∧ (onShift.port .console).stageMask.getLsbD 0 = true := by
  repeat' apply And.intro
  all_goals first
    | rfl
    | decide

/-- A counter one below its greatest value, with one and with two added; a marked one; fifteen counters. -/
theorem witness_CountersSaturateWithTheirMarks :
    (⟨4294967294, false⟩ : Counter).mark = false
      ∧ (4294967294 : Nat) + 1 ≤ 4294967295
      ∧ (4294967295 : Nat) < 4294967294 + 2
      ∧ (⟨4294967295, true⟩ : Counter).mark = true
      ∧ CountersLaw up.shift
      ∧ CounterId.steps ≠ CounterId.tipsTotal := by
  refine ⟨by decide, by decide, by decide, by decide, rfl, by decide⟩

/-- A part with nothing in flight and one record to file. -/
def toFile (b : RecordBody) : State :=
  { onShift with journal := { onShift.journal with queue := [⟨1, now, b⟩], inFlight := none } }

/-- The same with writing closed. -/
def unfilable (b : RecordBody) : State := { toFile b with journal := { (toFile b).journal with state := .fault .retiredList } }

/-- The record of a hire. -/
def rideRecord : HireRecord := ended.record .a

/-- A record and a slot free, one in flight, none queued; records of each kind that find no slot. -/
theorem witness_FilingTakesAPlaceOrGoesUnfiled :
    (toFile .retentionLost).journal.inFlight = none
      ∧ (toFile .retentionLost).journal.queue = [⟨1, now, .retentionLost⟩]
      ∧ (toFile .retentionLost).journal.state ≠ .fault .retiredList
      ∧ (toFile .retentionLost).journal.slotFree (toFile .retentionLost).journal.writer = true
      ∧ onShift.journal.inFlight.isSome
      ∧ ({ onShift.journal with queue := [] } : Journal).queue = []
      ∧ (unfilable (.hire rideRecord)).journal.inFlight = none
      ∧ (unfilable (.hire rideRecord)).journal.state = .fault .retiredList
      ∧ (unfilable (.hire rideRecord)).shift.state ≠ .closing
      ∧ (unfilable (.shift 7 now now [])).journal.queue = [⟨1, now, .shift 7 now now []⟩]
      ∧ RecordBody.retentionLost.reserved = false
      ∧ ({ (toFile .retentionLost).journal with store := [(0, .whole 1 ⟨0, now, .retentionLost⟩)] } : Journal).slotFree ⟨0, 0⟩ = false := by
  repeat' apply And.intro
  all_goals first
    | rfl
    | decide +kernel

/-- A CLOSED shift that may open for driver 1, an OPEN and a CLOSED one for SET_POOLING, and a value of 2. -/
theorem witness_ShiftsOpenAndPool :
    Ready ready .console
      ∧ ready.shift.state = .closed
      ∧ 1 ≤ (1 : Half).toNat
      ∧ ready.tariffs.activation = none
      ∧ ready.tariffs.configWrite = none
      ∧ ready.partClear = .idle
      ∧ ready.sign.test = none
      ∧ ready.tariffs.active.hasTariff = true
      ∧ ready.journal.state = .normal
      ∧ 4 ≤ ready.journal.free
      ∧ Ready onShift .fleet
      ∧ onShift.shift.state = .opened
      ∧ Ready ready .fleet
      ∧ ready.shift.state ≠ .opened
      ∧ 1 < (2 : Byte).toNat := by
  repeat' apply And.intro
  all_goals decide +kernel

/-- An OPEN shift with no hire aboard but a booking, with one aboard, and a CLOSED one. -/
theorem witness_CloseShiftBeginsTheDrain :
    Ready (aboard { Hire.cleared with stage := .booked }) .fleet
      ∧ Kind.offered .closeShift .fleet = true
      ∧ (aboard { Hire.cleared with stage := .booked }).shift.state = .opened
      ∧ (aboard { Hire.cleared with stage := .booked }).journal.steady
      ∧ (∀ sl, ((aboard { Hire.cleared with stage := .booked }).hire sl).stage = .free ∨ ((aboard { Hire.cleared with stage := .booked }).hire sl).stage = .booked)
      ∧ (aboard { Hire.cleared with stage := .booked }).shift.summary = false
      ∧ (toFile .retentionLost).journal.inFlight = none
      ∧ (∃ sl, ((aboard ride).hire sl).stage ≠ .free ∧ ((aboard ride).hire sl).stage ≠ .booked)
      ∧ (aboard ride).journal.steady
      ∧ ready.shift.state ≠ .opened := by
  repeat' apply And.intro
  all_goals first
    | decide
    | exact Or.inl (by decide)
    | exact Or.inr (by decide)
    | (intro sl; cases sl <;> decide)
    | exact ⟨SlotId.a, by decide⟩

/-- A part with a totalizer write that has failed n times. -/
def writing (n : Nat) : State := { onShift with shift := { onShift.shift with totalsWrite := some ⟨⟨0, 0, 0, 0, 0⟩, n⟩, gained := 99 } }

/-- Writes that have failed once and twice, and the pulse of the hundredth metre with none and one in flight. -/
theorem witness_TotalizerWritesBeginAndEnd :
    (writing 1).power = .running
      ∧ (writing 1).shift.totalsWrite = some ⟨⟨0, 0, 0, 0, 0⟩, 1⟩
      ∧ (1 : Nat) < 2
      ∧ (2 : Nat) ≤ 2
      ∧ (writing 2).shift.gained < 100
      ∧ 100 ≤ (writing 2).shift.gained + metresDrawn (writing 2).tariffs.config.k (writing 2).odoRem
      ∧ (writing 2).shift.totalsWrite.isSome
      ∧ ({ onShift.shift with gained := 99 } : ShiftAccounting).totalsWrite = none := by
  repeat' apply And.intro
  all_goals decide

/-- A free slot at the deadlines 1 and 3600; a booked one; a hire to close, claimed and not; a claim to renew; no slot 3. -/
theorem witness_BookingsClosesAndReads :
    Ready onShift .fleet
      ∧ slotOf 0 = some .a
      ∧ 1 ≤ (1 : Half).toNat
      ∧ (3600 : Half).toNat ≤ 3600
      ∧ onShift.shift.state = .opened
      ∧ (onShift.hire .a).stage = .free
      ∧ AloneIn onShift .a
      ∧ onShift.journal.state = .normal
      ∧ onShift.hires.occupied + 2 ≤ onShift.journal.free
      ∧ ((aboard { Hire.cleared with stage := .booked }).hire .a).stage = .booked
      ∧ ((aboard ride).hire .a).stage ≠ .booked
      ∧ Ready (aboard ended) .console
      ∧ ((aboard ended).hire .a).stage = .stopped
      ∧ ((aboard ended).hire .a).claim = none
      ∧ (∀ e ∈ ((aboard ended).hire .a).payments, e.state ≠ .pending)
      ∧ ((aboard (claimedTo 9000)).hire .a).claim.isSome
      ∧ ((aboard ride).hire .a).stage ≠ .stopped
      ∧ ((aboard ended).hire .a).claimedBy .payment = false
      ∧ ((aboard (claimedTo 9000)).hire .a).claimedBy .payment = true
      ∧ slotOf 3 = none := by
  repeat' apply And.intro
  all_goals first
    | decide +kernel
    | (intro o h; cases o <;> first | exact absurd rfl h | rfl)

/-- A free slot, and a tariff chosen by the calendar and by the driver. -/
theorem witness_StartHireSetsUpTheHire :
    Ready onShift .console
      ∧ slotOf 0 = some .a
      ∧ (onShift.hire .a).stage = .free
      ∧ onShift.shift.state = .opened
      ∧ onShift.journal.state = .normal
      ∧ onShift.hires.occupied + 2 ≤ onShift.journal.free
      ∧ AloneIn onShift .a
      ∧ onShift.tariffs.active.tariff (calendarChoice onShift.tariffs.active.calendar onShift.clock) = some tariff
      ∧ (1 : Byte) ≠ 0
      ∧ (1 : Byte).toNat ≤ 8
      ∧ tariff.manual = true
      ∧ onShift.tariffs.active.tariff (1 : Byte).toNat = some tariff := by
  repeat' apply And.intro
  all_goals first
    | decide +kernel
    | (intro o h; cases o <;> first | exact absurd rfl h | rfl)

/-- A hire in each stage these requests ask about. -/
theorem witness_SuspendResumeAndStop :
    Ready (aboard ride) .console
      ∧ slotOf 0 = some .a
      ∧ ((aboard ride).hire .a).stage = .metering
      ∧ ((aboard { ride with stage := .engaged }).hire .a).stage = .engaged
      ∧ ((aboard waitingRide).hire .a).stage = .suspended
      ∧ ((aboard waitingRide).hire .a).resumeStage = some .metering
      ∧ ((aboard waitingRide).hire .a).pendingStop = false
      ∧ ((aboard { waitingRide with pendingStop := true }).hire .a).pendingStop = true
      ∧ ((aboard ended).hire .a).stage = .stopped
      ∧ ((aboard ended).hire .a).claim = none
      ∧ ((aboard (claimedTo 9000)).hire .a).stage = .stopped
      ∧ ((aboard (claimedTo 9000)).hire .a).claim.isSome
      ∧ ((aboard { ended with stage := .filing }).hire .a).stage = .filing
      ∧ (onShift.hire .a).stage = .free := by
  repeat' apply And.intro
  all_goals decide

/-- An extra added up to its greatest count and the fare cap, in its place and at the end; pairs lowered to 0 and to 1; an emptied place. -/
theorem witness_ExtrasAreAddedAndRemoved :
    Ready (aboard ended) .console
      ∧ slotOf 0 = some .a
      ∧ ((aboard ended).hire .a).stage = .stopped
      ∧ ((aboard ended).hire .a).claim = none
      ∧ (aboard ended).tariffs.active.extra (1 : Byte).toNat = some extra
      ∧ extra.afterStop = true
      ∧ extraCount [(1, 1)] 1 + 1 ≤ extra.maxCount
      ∧ ({ ended with metered := 999799 } : Hire).metered + ended.extrasAmount + extra.amount ≤ 999999
      ∧ ended.payments = []
      ∧ (1, 2) ∈ ({ ended with extras := [(1, 2)] } : Hire).extras
      ∧ [(2, 1), (1, 1), (3, 1)] = [(2, 1)] ++ (1, 1) :: [(3, 1)]
      ∧ (∀ x ∈ [(2, 1)], x.1 ≠ 1)
      ∧ (∀ x ∈ ended.extras, x.1 ≠ 1)
      ∧ (1 : Nat) ≤ 1
      ∧ ¬(2 : Nat) ≤ 1
      ∧ (aboard ended).tariffs.active.extra (8 : Byte).toNat = none := by
  repeat' apply And.intro
  all_goals decide

/-- A hire unclaimed, claimed by the port and claimed by the other; a port that holds a claim; a hire that runs. -/
theorem witness_ClaimsAreGrantedAndReleased :
    Ready (aboard ended) .payment
      ∧ PortId.payment ≠ .console
      ∧ slotOf 0 = some .a
      ∧ ((aboard ended).hire .a).stage = .stopped
      ∧ ((aboard ended).hire .a).claim = none
      ∧ (aboard ended).holdsClaim .payment = false
      ∧ ((aboard ended).putHire .b (claimedTo 9000)).holdsClaim .payment = true
      ∧ ((aboard (claimedTo 9000)).hire .a).claim = some ⟨.payment, 9000⟩
      ∧ ((aboard (claimedTo 9000)).hire .a).claimedBy .payment = true
      ∧ PortId.payment ≠ .fleet
      ∧ ((aboard ride).hire .a).stage ≠ .stopped := by
  repeat' apply And.intro
  all_goals decide

/-- A payment of the whole balance, a fourth and a fifth entry; each field out of range; cash; an approval to reverse. -/
theorem witness_PaymentsAreBegunPostedAndReversed :
    Ready (aboard (claimedTo 9000)) .payment
      ∧ slotOf 0 = some .a
      ∧ ((aboard (claimedTo 9000)).hire .a).stage = .stopped
      ∧ ((aboard (claimedTo 9000)).hire .a).claimedBy .payment = true
      ∧ (List.replicate 3 (entryOf .card 1 .declined)).length < 4
      ∧ 4 ≤ (List.replicate 4 (entryOf .card 1 .declined)).length
      ∧ methodOf 0 = some .card
      ∧ methodOf 2 = some .account
      ∧ PayMethod.card ≠ .cash
      ∧ 1 ≤ (1 : Word).toNat
      ∧ (300 : Word).toNat ≤ (claimedTo 9000).balance
      ∧ (99999 : Word).toNat ≤ 99999
      ∧ methodOf 3 = none
      ∧ methodOf 1 = some .cash
      ∧ (0 : Word).toNat = 0
      ∧ (claimedTo 9000).balance < (301 : Word).toNat
      ∧ 99999 < (100000 : Word).toNat
      ∧ Ready (aboard ended) .console
      ∧ ((aboard ended).hire .a).claim = none
      ∧ ((aboard ended).hire .a).payments.length < 4
      ∧ (300 : Word).toNat ≤ ended.balance
      ∧ ((aboard (claimedTo 9000)).hire .a).claim.isSome
      ∧ 1 ≤ (1 : Byte).toNat
      ∧ ({ claimedTo 9000 with payments := [entryOf .card 1 .approved] } : Hire).payments[(1 : Byte).toNat - 1]? = some (entryOf .card 1 .approved)
      ∧ (entryOf .card 1 .approved).state = .approved
      ∧ (entryOf .card 1 .approved).method ≠ .cash
      ∧ (entryOf .card 1 .declined).state ≠ .approved
      ∧ (0 : Byte).toNat = 0
      ∧ ({ claimedTo 9000 with payments := [entryOf .card 1 .approved] } : Hire).payments.length < (2 : Byte).toNat := by
  repeat' apply And.intro
  all_goals decide

/-- A PAYMENT_RESULT for entry 1 of hire 1 in slot A, by card, of 300 cents. -/
def resultFor (result route method : Byte) : ResultFields := ⟨0, 1, 1, result, route, 0, method, 300, 0⟩

/-- A STOPPED hire claimed by the Payment port with one entry of 300 cents. -/
def paying (m : PayMethod) (st : PayState) : State := aboard { claimedTo 9000 with payments := [entryOf m 300 st] }

/-- A result for a PENDING entry: each result and route, a ceiling just kept and just passed, an account, and a port without the claim. -/
theorem witness_ResultsAnswerPendingEntries :
    Ready (paying .card .pending) .payment
      ∧ PortId.payment ≠ .console
      ∧ SpeaksOf (paying .card .pending) .a (resultFor 0 1 0) (entryOf .card 300 .pending)
      ∧ ((paying .card .pending).hire .a).stage = .stopped
      ∧ (entryOf .card 300 .pending).state = .pending
      ∧ ((paying .card .pending).hire .a).claimedBy .payment = true
      ∧ (resultFor 1 0 0).result = 1
      ∧ routeOf (resultFor 1 0 0).route = some .online
      ∧ ¬(Route.online = Route.offline ∧ PayMethod.card = .account)
      ∧ (resultFor 0 0 0).result = 0
      ∧ (resultFor 0 0 0).route = 0
      ∧ (resultFor 0 1 0).route = 1
      ∧ ({ (paying .card .pending).shift with offlineTotal := 700 } : ShiftAccounting).offlineTotal + 300 ≤ (paying .card .pending).shift.ceiling
      ∧ (paying .card .pending).shift.ceiling < ({ (paying .card .pending).shift with offlineTotal := 701 } : ShiftAccounting).offlineTotal + 300
      ∧ SpeaksOf (paying .account .pending) .a (resultFor 0 1 2) (entryOf .account 300 .pending)
      ∧ (resultFor 1 1 2).result.toNat ≤ 1
      ∧ Ready (paying .card .pending) .fleet
      ∧ ((paying .card .pending).hire .a).claimedBy .fleet = false
      ∧ (resultFor 0 1 0).route.toNat ≤ 1 := by
  repeat' apply And.intro
  all_goals decide

/-- Results for an EXPIRED entry in STOPPED and in FILING, from its port and another, and for a hire that has left; a journal with room, and none. -/
theorem witness_LateResultsLeaveATrace :
    Ready (paying .card .expired) .payment
      ∧ (resultFor 0 0 0).route.toNat ≤ 1
      ∧ SpeaksOf (paying .card .expired) .a (resultFor 0 0 0) (entryOf .card 300 .expired)
      ∧ (entryOf .card 300 .expired).state = .expired
      ∧ ((paying .card .expired).hire .a).stage = .stopped
      ∧ (entryOf .card 300 .expired).port = .payment
      ∧ (resultFor 1 0 0).result = 1
      ∧ ({ entryOf .card 300 .expired with late := true } : Payment).late = true
      ∧ (entryOf .card 300 .expired).late = false
      ∧ ({ claimedTo 9000 with stage := .filing } : Hire).stage = .filing
      ∧ (entryOf .card 300 .expired).port ≠ .fleet
      ∧ (resultFor 0 0 0).result.toNat ≤ 1
      ∧ slotOf (resultFor 0 0 0).slot = some .a
      ∧ ((aboard { ended with number := some 2 }).hire .a).number ≠ some (resultFor 0 0 0).hire.toNat
      ∧ (onShift.hire .a).stage = .free
      ∧ methodOf (resultFor 0 0 0).method = some .card
      ∧ onShift.journal.steady
      ∧ onShift.journal.state = .normal
      ∧ onShift.reserve < onShift.journal.free
      ∧ onShift.partClear ≠ .recovering
      ∧ ({ onShift.journal with queue := [], state := .fault .reserve } : Journal).queue = []
      ∧ ({ onShift.journal with queue := [], state := .fault .reserve } : Journal).state ≠ .normal
      ∧ ({ onShift with partClear := .recovering } : State).partClear = .recovering := by
  repeat' apply And.intro
  all_goals first
    | decide +kernel
    | exact Or.inl (by decide)

/-- The state at which the next tick is a fare tick and reaches a count of 10. -/
def beforeFare (s : State) : State := { s with timeBase := 9 }

/-- A due count, a claim's expiry and a pickup deadline reached at the count of the tick, and a claim that outlives it. -/
theorem witness_TimersExpireAtTheFareTick :
    (beforeFare onShift).power = .running
      ∧ (beforeFare onShift).fareNext = true
      ∧ (beforeFare onShift).partClear = .idle
      ∧ (beforeFare onShift).journal.steady
      ∧ ((aboard (claimedTo 11)).hire .a).stage = .stopped
      ∧ ((aboard (claimedTo 11)).hire .a).claim = some ⟨.payment, 11⟩
      ∧ (beforeFare onShift).nextCount < 11
      ∧ (1 : Nat) ≤ 1
      ∧ ({ claimedTo 11 with payments := [{ entryOf .card 1 .pending with due := some 10 }] } : Hire).payments[1 - 1]? = some { entryOf .card 1 .pending with due := some 10 }
      ∧ ({ entryOf .card 1 .pending with due := some 10 } : Payment).dueAt (beforeFare onShift).nextCount = true
      ∧ ((aboard (claimedTo 10)).hire .a).claim = some ⟨.payment, 10⟩
      ∧ 10 ≤ (beforeFare onShift).nextCount
      ∧ ((aboard { Hire.cleared with stage := .booked, booking := some ⟨1, now⟩ }).hire .a).booking = some ⟨1, now⟩
      ∧ (aboard { Hire.cleared with stage := .booked, booking := some ⟨1, now⟩ }).clock.reached now = true := by
  repeat' apply And.intro
  all_goals first
    | decide
    | exact Or.inl (by decide)

/-- A block that clears the staging set, alone in its chain. -/
def clearBlock : List Byte := [7, 0]

/-- A block that withdraws tariff 1. -/
def withdrawBlock : List Byte := [4, 0, 1]

/-- A part with an open chain. -/
def chained (k : ChainKind) (stopped : Bool) : State :=
  { ready with tariffs := { ready.tariffs with chain := { Chain.cleared with kind := some k, stopped := stopped } } }

/-- A block that succeeds, one that fails, a chain stopped, a busy store, and an open COMPARE chain. -/
theorem witness_LoadTakesBlocksIntoItsChain :
    Ready ready .fleet
      ∧ clearBlock.length ≤ 240
      ∧ (List.replicate 240 (0 : Byte)).length ≤ 240
      ∧ ready.tariffs.activation = none
      ∧ ready.partClear = .idle
      ∧ ready.tariffs.chain.kind ≠ some .compare
      ∧ ready.tariffs.chain.stopped = false
      ∧ readBlock clearBlock = .ok .clearStaging
      ∧ applyBlock ready.tariffs.staging .clearStaging = .ok TariffSet.blank
      ∧ (readBlock withdrawBlock).bind (applyBlock ready.tariffs.staging) = .error .noSuch
      ∧ (chained .load true).tariffs.chain.stopped = true
      ∧ ({ ready.tariffs with activation := some tariffs } : TariffStore).activation.isSome
      ∧ ({ ready with partClear := .plain } : State).partClear ≠ .idle
      ∧ (chained .compare false).tariffs.chain.kind = some .compare := by
  repeat' apply And.intro
  all_goals decide +kernel

/-- A block that is valid, one that is not, a chain stopped, an open LOAD chain, and each closing result; blocks that differ and agree. -/
theorem witness_CompareChangesOnlyItsChain :
    Ready ready .fleet
      ∧ withdrawBlock.length ≤ 240
      ∧ ready.tariffs.chain.kind ≠ some .load
      ∧ ready.tariffs.chain.stopped = false
      ∧ readBlock withdrawBlock = .ok (.withdrawTariff 1)
      ∧ readBlock [4, 0, 9] = .error .noSuch
      ∧ (chained .compare true).tariffs.chain.stopped = true
      ∧ (chained .load false).tariffs.chain.kind = some .load
      ∧ Chain.cleared.firstDiff = none
      ∧ ({ Chain.cleared with firstDiff := some 1 } : Chain).firstDiff = some 1
      ∧ blockDiffers tariffs (.tariff 1 tariff) = false
      ∧ blockDiffers tariffs (.tariff 8 tariff) = true
      ∧ blockDiffers tariffs (.withdrawExtra 1) = true
      ∧ blockDiffers TariffSet.blank .clearStaging = false := by
  repeat' apply And.intro
  all_goals decide +kernel

/-- Places at both ends of their ranges, present and empty, and one beyond. -/
theorem witness_TariffSetsAreWrittenAndShown :
    tariffs.shaped
      ∧ (1 : Nat) ≤ 1
      ∧ (8 : Nat) ≤ 8
      ∧ (31 : Nat) ≤ 31
      ∧ (tariffs.tariff 1).isSome
      ∧ (tariffs.entry 0).isSome
      ∧ (tariffs.extra 1).isSome
      ∧ tariffs.tariff 8 = none
      ∧ tariffs.entry 31 = none
      ∧ tariffs.extra 8 = none
      ∧ Ready ready .fleet
      ∧ ready.tariffs.active = tariffs
      ∧ 1 ≤ (1 : Byte).toNat
      ∧ (8 : Byte).toNat ≤ 8
      ∧ (0 : Byte).toNat = 0
      ∧ 8 < (9 : Byte).toNat
      ∧ (31 : Byte).toNat ≤ 31
      ∧ 31 < (32 : Byte).toNat
      ∧ 4 < (5 : Byte).toNat
      ∧ 1 < (2 : Byte).toNat := by
  repeat' apply And.intro
  all_goals decide +kernel

/-- A tariff in range, a calendar entry and an extra at the ends of theirs. -/
theorem witness_BlocksReadBackAsTheyAreLaidOut :
    (1 : Nat) ≤ 1
      ∧ (8 : Nat) ≤ 8
      ∧ tariff.inRange = true
      ∧ ({ tariff with flagFall := 99999, d0 := 20000, t0 := 36000, s2 := 1, s3 := 100 } : Tariff).inRange = true
      ∧ (31 : Nat) ≤ 31
      ∧ (1 : BitVec 7) ≠ 0
      ∧ (1439 : Nat) ≤ 1439
      ∧ (50000 : Nat) ≤ 50000
      ∧ (9 : Nat) ≤ 9 := by
  repeat' apply And.intro
  all_goals decide

/-- A CLOSED shift with nothing in flight, and an activation in flight. -/
theorem witness_ActivationBringsTheStagingSetIntoUse :
    Ready ready .fleet
      ∧ ready.tariffs.activation = none
      ∧ ready.tariffs.configWrite = none
      ∧ ready.partClear = .idle
      ∧ ready.shift.state = .closed
      ∧ ready.tariffs.chain.kind = none
      ∧ ({ ready with tariffs := { ready.tariffs with activation := some tariffs } } : State).power = .running
      ∧ ({ ready with tariffs := { ready.tariffs with activation := some tariffs } } : State).tariffs.activation = some tariffs
      ∧ ready.journal.steady := by
  repeat' apply And.intro
  all_goals first
    | decide
    | exact Or.inl (by decide)

/-- SET_CONFIG fields with a presence byte and a k. -/
def fields (presence : Byte) (k : Half) : ConfigFields := ⟨presence, k, 30, 20, 0, 1, 16, 32, 1⟩

/-- A mark that stands set under a level it does not call for is left by a SET_CONFIG of that level, and cleared by one of another. -/
theorem test_low_mark_follows_a_changed_level :
    (({ ready with journal := { ready.journal with low := true } } : State).configured { fields 0x20 400 with lowWater := 64 }).journal.low = true
      ∧ (({ ready with journal := { ready.journal with low := true } } : State).configured { fields 0x20 400 with lowWater := 65 }).journal.low
        = false := by
  decide

/-- Every field at its least value, k at both ends and beyond, a change of k in a shift, another low-water level and the one held, a busy store, a full level that changes, and writes that have failed once and twice. -/
theorem witness_ConfigurationIsSetAndWritten :
    Ready ready .fleet
      ∧ ready.tariffs.activation = none
      ∧ ready.tariffs.configWrite = none
      ∧ ready.partClear = .idle
      ∧ fieldsInRange (fields 0xFF 400) = true
      ∧ fieldsInRange (fields 1 30000) = true
      ∧ hasField (fields 1 400) 1 = true
      ∧ (fields 1 400).k.toNat ≠ ready.tariffs.config.k
      ∧ ready.shift.state = .closed
      ∧ hasField (fields 0xFE 400) 1 = false
      ∧ hasField (fields 0x20 400) 6 = true
      ∧ (fields 0x20 400).lowWater.toNat ≠ ready.tariffs.config.lowWater
      ∧ ({ fields 0x20 400 with lowWater := 64 } : ConfigFields).lowWater.toNat = ready.tariffs.config.lowWater
      ∧ Ready onShift .fleet
      ∧ onShift.shift.state ≠ .closed
      ∧ ({ ready with tariffs := { ready.tariffs with configWrite := some 1 } } : State).tariffs.configWrite = some 1
      ∧ ready.power = .running
      ∧ (1 : Nat) < 2
      ∧ (2 : Nat) ≤ 2
      ∧ ({ ready.tariffs with activation := some tariffs } : TariffStore).activation.isSome
      ∧ fieldsInRange (fields 1 399) = false
      ∧ fieldsInRange (fields 1 30001) = false
      ∧ ({ ready with sign := { ready.sign with night := true } } : State).fullLevel ≠ ready.fullLevel := by
  repeat' apply And.intro
  all_goals decide

/-- Clock fields of a minute and second of 2 June 2025, 10 o'clock. -/
def fieldsAt (minute second : Byte) : ClockFields := ⟨2025, 6, 2, 1, 10, minute, second⟩

/-- A time 120 seconds away in an OPEN shift and one 121 away, an invalid one, the last time, and calendar choices of today, of a day before and of none. -/
theorem witness_TheClockIsSetMovesAndChoosesTariffs :
    Ready onShift .fleet
      ∧ (clockTimeOf (fieldsAt 2 0)).valid = true
      ∧ (clockTimeOf (fieldsAt 2 0)).near onShift.clock = true
      ∧ (clockTimeOf (fieldsAt 60 0)).valid = false
      ∧ (clockTimeOf (fieldsAt 2 1)).valid = true
      ∧ onShift.shift.state ≠ .closed
      ∧ (clockTimeOf (fieldsAt 2 1)).near onShift.clock = false
      ∧ up.clock.valid = true
      ∧ up.clock.isLast = false
      ∧ (⟨2099, 12, 31, 4, 23, 59, 59⟩ : ClockTime).valid = true
      ∧ (⟨2099, 12, 31, 4, 23, 59, 59⟩ : ClockTime).isLast = true
      ∧ bestEntry tariffs.calendar (fun x => x.on now.weekday && decide (x.start ≤ now.minuteOfDay)) = some ⟨127, 0, 1⟩
      ∧ bestEntry [some ⟨64, 0, 2⟩] (fun x => x.on now.weekday && decide (x.start ≤ now.minuteOfDay)) = none
      ∧ bestEntry [some ⟨64, 0, 2⟩] (fun x => x.on (weekdayBefore now.weekday (0 + 1))) = some ⟨64, 0, 2⟩
      ∧ bestEntry [some ⟨1, 700, 2⟩] (fun x => x.on (weekdayBefore now.weekday (6 + 1))) = some ⟨1, 700, 2⟩
      ∧ ([] : List (Option CalendarEntry))[0]? = none := by
  repeat' apply And.intro
  all_goals decide

/-- The ends of the three ranges of k. -/
theorem witness_MetresAreDrawnFromPulses :
    (0 : Nat) < 400
      ∧ (399 : Nat) < 400
      ∧ (499 : Nat) ≤ 499
      ∧ (500 : Nat) ≤ 500
      ∧ (999 : Nat) ≤ 999
      ∧ (1000 : Nat) ≤ 1000 := by
  repeat' apply And.intro
  all_goals decide

/-- A charge up to the cap exactly, one cent beyond, and a capped hire. -/
theorem witness_StepChargeFollowsShareResidueAndCap :
    ride.capped = false
      ∧ ({ ride with metered := 999899 } : Hire).metered + ride.extrasAmount + (100 * 100 + ride.residue) / 100 ≤ 999999
      ∧ 999999 < ({ ride with metered := 999900 } : Hire).metered + ride.extrasAmount + (100 * 100 + ride.residue) / 100
      ∧ ({ ride with capped := true } : Hire).capped = true := by
  repeat' apply And.intro
  all_goals decide

/-- A hire that is not capped after two steps. -/
theorem witness_ResidueCarriesEveryFraction :
    (chargeAll ride [(25, 45), (25, 60)]).capped = false := by
  decide

/-- A two-band tariff: the second from 2000 m. -/
def twoBands : Tariff := { tariff with bands := [⟨0, 100, 200, 10, .combined⟩, ⟨2000, 50, 100, 10, .time⟩] }

/-- A hire well into its first band, one pulse short of a step at 1000 pulses a kilometre. -/
def nearStep : Hire := { ride with distAcc := 99000, pulses := 50 }

/-- A SUSPENDED and an ended hire; the pulse that reaches band 2; accumulators just below and just at the threshold; a vacant cab and a hired one; an ENGAGED hire. -/
theorem witness_PulsesAdvanceTheCab :
    waitingRide.stage = .suspended
      ∧ ended.running = false
      ∧ ended.stage ≠ .suspended
      ∧ ride.running = true
      ∧ ride.tariffKind = .metered
      ∧ tariffs.tariff ride.tariffId = some tariff
      ∧ (twoBands.bands[2 - 1]?).isSome
      ∧ 2000 * 1000 ≤ (({ ride with pulses := 1999 } : Hire).travel 1000).pulses * 1000
      ∧ (({ ride with pulses := 1998 } : Hire).travel 1000).pulses * 1000 < 2000 * 1000
      ∧ ({ nearStep with distAcc := 98999 } : Hire).distAcc + 1000 < 100 * 1000
      ∧ 1000 ≤ 100 * 1000
      ∧ nearStep.distAcc < 100 * 1000
      ∧ 100 * 1000 ≤ nearStep.distAcc + 1000
      ∧ (⟨2000, 50, 100, 10, .time⟩ : Band).mode = .time
      ∧ (⟨0, 1, 1, 1, .combined⟩ : Band).mode ≠ .time
      ∧ 1 ≤ (⟨0, 1, 1, 1, .combined⟩ : Band).step
      ∧ onShift.power = .running
      ∧ onShift.shift.state ≠ .closed
      ∧ (∀ sl, (onShift.hire sl).running = false ∧ (onShift.hire sl).stage ≠ .suspended)
      ∧ ready.shift.state = .closed
      ∧ ((aboard ride).hire .a).running = true
      ∧ ({ ride with stage := .engaged } : Hire).stage = .engaged
      ∧ (onShift.port .console).stageMask.getLsbD 3 = true
      ∧ ({ ride with unmetered := true } : Hire).unmetered = true
      ∧ ride.unmetered = false
      ∧ twoBands.bands = ⟨0, 100, 200, 10, .combined⟩ :: [⟨2000, 50, 100, 10, .time⟩]
      ∧ twoBands.bands[2]? = none
      ∧ ({ ride with distInitial := true } : Hire).distInitial = true
      ∧ 1 ≤ tariff.d0 := by
  repeat' apply And.intro
  all_goals first
    | decide
    | (intro sl; cases sl <;> decide)

/-- A tick that is no fare tick and one that is; time accumulators just below and just at the threshold. -/
theorem witness_TicksAndFareTicks :
    up.power = .running
      ∧ ¬(up.timeBase + 1) % 2 ^ 48 % 10 = 0
      ∧ up.partClear = .idle
      ∧ (beforeFare (aboard ride)).fareNext = true
      ∧ (beforeFare (aboard ride)).partClear = .idle
      ∧ (beforeFare (aboard ride)).journal.steady
      ∧ ((beforeFare (aboard ride)).hire .a).claim = none
      ∧ ((beforeFare (aboard ride)).hire .a).running = true
      ∧ waitingRide.stage = .suspended
      ∧ ({ ride with tariffKind := .fixed } : Hire).tariffKind = .fixed
      ∧ 1 ≤ ride.band
      ∧ tariff.bands[ride.band - 1]? = some ⟨0, 100, 200, 10, .combined⟩
      ∧ BandMode.combined ≠ .distance
      ∧ ({ ride with timeAcc := 198 } : Hire).timeAcc + 1 < 200
      ∧ 200 ≤ ({ ride with timeAcc := 199 } : Hire).timeAcc + 1
      ∧ ({ ride with unmetered := true } : Hire).unmetered = true
      ∧ ride.unmetered = false := by
  repeat' apply And.intro
  all_goals first
    | decide
    | exact Or.inl (by decide)

/-- Lines with push-to-talk held. -/
def linesTalk : Lines := { Lines.reset with talk := true }

/-- Lines with the call button pressed. -/
def linesCall : Lines := { Lines.reset with call := true }

/-- A part whose call button was first read as pressed at the last tick. -/
def calling (m : TalkMode) : State := { up with intercom := { up.intercom with mode := m, callNewer := true } }

/-- Ticks at even and odd counts, with a test and without; 98 disagreeing readings; push-to-talk and the call button at their second reading. -/
theorem witness_sign_and_lines_at_a_tick :
    (beforeFare onShift).nextCount % 2 = 0
      ∧ onShift.nextCount % 2 ≠ 0
      ∧ onShift.sign.test = none
      ∧ (beforeFare onShift).fareNext = true
      ∧ onShift.fareNext = false
      ∧ ({ onShift.sign with test := some ⟨.vacant, 2⟩ } : Sign).test = some ⟨.vacant, 2⟩
      ∧ (1 : Nat) < 2
      ∧ linesNight.night ≠ onShift.sign.night
      ∧ ({ onShift.sign with disagree := 98 } : Sign).disagree < 99
      ∧ linesTalk.talk ≠ up.intercom.held
      ∧ ({ up.intercom with mode := .ptt, talkNewer := true } : Intercom).talkNewer = linesTalk.talk
      ∧ linesCall.call = true
      ∧ (calling .privateTalk).intercom.callNewer = true
      ∧ (calling .privateTalk).intercom.callOlder = false
      ∧ (calling .privateTalk).intercom.mode = .privateTalk
      ∧ (calling .privateTalk).intercom.chime = none
      ∧ (calling .ptt).intercom.mode ≠ .privateTalk := by
  repeat' apply And.intro
  all_goals decide

/-- A record in flight, with seven pages retired and with eight. -/
theorem witness_VerifiesPassAndFail :
    up.power = .running
      ∧ up.partClear = .idle
      ∧ up.journal.inFlight = some ⟨1, ⟨0, 0⟩⟩
      ∧ up.journal.queue = [⟨0, ClockTime.first, .retentionLost⟩]
      ∧ (4294967294 : Nat) < 4294967295
      ∧ [1, 2, 3, 4, 5, 6, 7].length < 8
      ∧ 8 ≤ [1, 2, 3, 4, 5, 6, 7, 8].length
      ∧ up.journal.state = .normal
      ∧ (up.journal.retire ⟨1, ⟨0, 0⟩⟩).slotFree (up.journal.retire ⟨1, ⟨0, 0⟩⟩).writer = true
      ∧ [1, 2, 3, 4, 5, 6, 7, 8].length ≤ 8
      ∧ (14 : Nat) < 15
      ∧ ¬(15 : Nat) < 15 := by
  repeat' apply And.intro
  all_goals decide +kernel

/-- A journal that holds two records. -/
def twoRecords : State :=
  { ready with journal := { ready.journal with
      store := [(0, .whole 1 ⟨0, now, .retentionLost⟩), (1, .whole 2 ⟨0, now, .retentionLost⟩)], nextSeq := 3 } }

/-- Counts at both ends, a record of the greatest length, five records in two frames, and the fifteen counters. -/
theorem witness_RecordsAreOfferedInTheirLayout :
    Ready twoRecords .fleet
      ∧ 1 ≤ (1 : Byte).toNat
      ∧ (64 : Byte).toNat ≤ 64
      ∧ (0 : Byte).toNat = 0
      ∧ 64 < (65 : Byte).toNat
      ∧ (List.replicate 23 (0 : Byte)).length = 23
      ∧ (∀ r ∈ [List.replicate 215 (0 : Byte)], r.length ≤ 215)
      ∧ up.shift.counters.length = 15
      ∧ (journalPayloads (List.replicate 23 0) 6 (List.replicate 5 (List.replicate 16 0))).map List.length = [66, 41] := by
  repeat' apply And.intro
  all_goals decide +kernel

/-- Numbers beyond the newest, at the acknowledged and between; unfiled records none, some, and counts at the ends. -/
theorem witness_AcknowledgementsFreeRecords :
    Ready twoRecords .fleet
      ∧ twoRecords.journal.nextSeq - 1 < (3 : Word).toNat
      ∧ (0 : Word).toNat ≤ twoRecords.journal.acked
      ∧ (2 : Word).toNat ≤ twoRecords.journal.nextSeq - 1
      ∧ twoRecords.journal.acked < (2 : Word).toNat
      ∧ slotRead twoRecords.journal.store (Place.index ⟨0, 1⟩) = some (.whole 2 ⟨0, now, .retentionLost⟩)
      ∧ (0 : Nat) ∉ twoRecords.journal.retired
      ∧ twoRecords.journal.writingOpen = true
      ∧ twoRecords.journal.unackedLive + (twoRecords.journal.queue.filter (fun r => !r.body.reserved)).length ≤ 16 * (256 - twoRecords.journal.retired.length)
      ∧ twoRecords.journal.unfiled = []
      ∧ ({ twoRecords.journal with unfiled := [⟨0, now, .retentionLost⟩] } : Journal).unfiled ≠ []
      ∧ 1 ≤ (1 : Byte).toNat
      ∧ (1 : Byte).toNat ≤ [(⟨0, now, .retentionLost⟩ : JournalRecord)].length
      ∧ (4 : Byte).toNat ≤ 4
      ∧ (0 : Byte).toNat = 0
      ∧ 4 < (5 : Byte).toNat
      ∧ [(⟨0, now, .retentionLost⟩ : JournalRecord)].length < (2 : Byte).toNat := by
  repeat' apply And.intro
  all_goals decide +kernel

/-- Tables with all free, with one aboard pooled and not; a target that changes; lamps above, at and below their goals. -/
theorem witness_TargetAndRamps :
    (∃ sl, (onShift.hires.get sl).stage = .free)
      ∧ (∀ sl, (onShift.hires.get sl).stage = .free)
      ∧ (∃ sl, ((aboard ride).hires.get sl).stage = .free)
      ∧ ¬(∀ sl, ((aboard ride).hires.get sl).stage = .free)
      ∧ ready.derivedTarget = ready.sign.target
      ∧ onShift.derivedTarget ≠ onShift.sign.target
      ∧ onShift.sign.test = none
      ∧ (⟨0, 15, false, 0⟩ : Lamp).goal < (⟨0, 15, false, 0⟩ : Lamp).level
      ∧ Lamp.dark.level = Lamp.dark.goal
      ∧ (⟨15, 0, false, 0⟩ : Lamp).level < (⟨15, 0, false, 0⟩ : Lamp).goal
      ∧ LampId.share ≠ .alarm := by
  repeat' apply And.intro
  all_goals first
    | decide
    | exact ⟨SlotId.b, by decide⟩
    | (intro sl; cases sl <;> decide)
    | (intro h; exact absurd (h .a) (by decide))

/-- An OPEN and a CLOSED shift, a listed and an unlisted override, a test running, and the alarm QUIET and ACTIVE. -/
theorem witness_SignRequestsOverrideTestAndClear :
    Ready onShift .console
      ∧ overrideOf 2 = some .full
      ∧ onShift.shift.state = .opened
      ∧ (overrideOf 0).isSome
      ∧ ready.shift.state ≠ .opened
      ∧ 3 < (4 : Byte).toNat
      ∧ Ready ready .fleet
      ∧ ready.shift.state = .closed
      ∧ ready.sign.test = none
      ∧ onShift.shift.state ≠ .closed
      ∧ ({ ready.sign with test := some ⟨.vacant, 1⟩ } : Sign).test.isSome
      ∧ ready.alarm.state = .quiet
      ∧ ({ ready.alarm with state := .active } : Alarm).state = .active
      ∧ LampId.vacant ≠ .alarm := by
  repeat' apply And.intro
  all_goals decide

/-- A part with the alarm flashing, its phase at its last tick. -/
def flashing : State := { onShift with sign := { onShift.sign with flash := some ⟨true, 1⟩ } }

/-- A part with a sign test at the last tick of a step. -/
def testing (i : LampId) : State := { ready with sign := { ready.sign with test := some ⟨i, 1⟩ } }

/-- Lamps at the levels 7 and 8 after one and two misses; the hundredth disagreeing reading; a flash and tests at their last tick. -/
theorem witness_TheSignChecksFlashesAndTests :
    (⟨15, 7, false, 0⟩ : Lamp).level < 8
      ∧ 8 ≤ (⟨15, 8, false, 1⟩ : Lamp).level
      ∧ (⟨15, 8, false, 1⟩ : Lamp).misses < 2
      ∧ 2 ≤ (⟨15, 8, false, 2⟩ : Lamp).misses
      ∧ onShift.power = .running
      ∧ onShift.partClear = .idle
      ∧ onShift.sign.test = none
      ∧ onShift.alarm.pressTaken Lines.reset.alarm = false
      ∧ linesNight.night ≠ onShift.sign.night
      ∧ 99 ≤ ({ onShift.sign with disagree := 99 } : Sign).disagree
      ∧ flashing.sign.flash = some ⟨true, 1⟩
      ∧ flashing.alarm.pressTaken Lines.reset.alarm = false
      ∧ (1 : Nat) ≤ 1
      ∧ (testing .vacant).sign.test = some ⟨.vacant, 1⟩
      ∧ LampId.next .vacant = some .hired
      ∧ (testing .alarm).sign.test = some ⟨.alarm, 1⟩
      ∧ (testing .alarm).partClear = .idle
      ∧ onShift.sign.lamps.vacant.fault = false := by
  repeat' apply And.intro
  all_goals decide

/-- Buffers empty, one short of the depth and full; centring one short of half full and at half; gains at 31 reads; gain 15. -/
theorem witness_BuffersOutputsAndTones :
    ({ Path.reset with buffer := List.replicate 63 0 } : Path).buffer.length < Path.reset.depth
      ∧ Path.reset.depth ≤ ({ Path.reset with buffer := List.replicate 64 0 } : Path).buffer.length
      ∧ 1 ≤ Path.reset.depth
      ∧ ({ Path.reset with centring := true, buffer := List.replicate 31 0 } : Path).centring = true
      ∧ ({ Path.reset with centring := true, buffer := List.replicate 31 0 } : Path).buffer.length < Path.reset.depth / 2
      ∧ ({ Path.reset with centring := true, buffer := 7 :: List.replicate 31 0 } : Path).centring = true
      ∧ Path.reset.depth / 2 ≤ ({ Path.reset with centring := true, buffer := 7 :: List.replicate 31 0 } : Path).buffer.length
      ∧ ({ Path.reset with centring := true, buffer := 7 :: List.replicate 31 0 } : Path).buffer = 7 :: List.replicate 31 0
      ∧ Path.reset.centring = false
      ∧ ({ Path.reset with buffer := [5] } : Path).buffer = [5]
      ∧ Path.reset.buffer = []
      ∧ (15 : Nat) ≤ 15
      ∧ ({ Path.reset with readCount := 30 } : Path).readCount < 31
      ∧ 31 ≤ ({ Path.reset with readCount := 31 } : Path).readCount
      ∧ Path.reset.gain < 8
      ∧ 7 < ({ Path.reset with gain := 8 } : Path).gain := by
  repeat' apply And.intro
  all_goals decide

/-- A part whose paths stand as given. -/
def paths (fr rf : Path) : State := { up with intercom := { up.intercom with fr := fr, rf := rf } }

/-- The last sample of the last prompt, in a talk mode, with the paths in given states. -/
def lastPrompt (m : TalkMode) (fr rf : PathState) : State :=
  { up with intercom := { up.intercom with
      mode := m, playing := some ⟨0, 1, 959⟩, waiting := [], fr := { Path.reset with state := fr }, rf := { Path.reset with state := rf } } }

/-- The alarm QUIET and ACTIVE with each monitor select; the last prompt's end with a path waiting on the other; no tone at its last sample; a path waiting for the other's last ramp step; prompts and chime at their last sample. -/
theorem witness_CodecFramesCarrySamples :
    up.power = .running
      ∧ up.alarm.state = .quiet
      ∧ ({ up.alarm with state := .active } : Alarm).state = .active
      ∧ ({ up.intercom with monitor := .mix } : Intercom).monitor = .mix
      ∧ lastSample up.intercom.chime = false
      ∧ up.intercom.fr.state ≠ .waiting
      ∧ (paths { Path.reset with state := .waiting } { Path.reset with gain := 1, readCount := 31 }).intercom.fr.state = .waiting
      ∧ (paths { Path.reset with state := .waiting } { Path.reset with gain := 1, readCount := 31 }).intercom.rf.state = .closed
      ∧ (paths { Path.reset with state := .waiting } { Path.reset with gain := 1, readCount := 31 }).intercom.rf.gain = 1
      ∧ 31 ≤ (paths { Path.reset with state := .waiting } { Path.reset with gain := 1, readCount := 31 }).intercom.rf.readCount
      ∧ (paths { Path.reset with state := .waiting } { Path.reset with gain := 1, readCount := 31 }).intercom.chime = none
      ∧ (paths { Path.reset with state := .waiting } { Path.reset with gain := 1, readCount := 31 }).intercom.playing = none
      ∧ (⟨0, 1, 959⟩ : Playing).left ≤ 1
      ∧ ({ up.intercom with playing := some ⟨0, 1, 959⟩, waiting := [2] } : Intercom).waiting = [2]
      ∧ (lastPrompt .ptt .waiting .closed).power = .running
      ∧ (lastPrompt .ptt .waiting .closed).intercom.playing = some ⟨0, 1, 959⟩
      ∧ (lastPrompt .ptt .waiting .closed).intercom.waiting = []
      ∧ (lastPrompt .ptt .waiting .closed).intercom.mode = .ptt
      ∧ (lastPrompt .ptt .waiting .closed).intercom.fr.state = .waiting
      ∧ (lastPrompt .ptt .waiting .closed).intercom.rf.state = .closed
      ∧ (lastPrompt .privateTalk .closed .waiting).intercom.mode = .privateTalk
      ∧ (lastPrompt .privateTalk .closed .waiting).intercom.fr.state = .closed
      ∧ (lastPrompt .privateTalk .closed .waiting).intercom.rf.state = .waiting
      ∧ (lastPrompt .privateTalk .closed .waiting).intercom.rf.state ≠ .opened
      ∧ 31 ≤ ({ Path.reset with readCount := 31 } : Path).readCount
      ∧ 0 < ({ Path.reset with volume := 8 } : Path).volume
      ∧ ({ up.intercom with mode := .ptt, chime := some ⟨3, 1, 7999⟩ } : Intercom).chime = some ⟨3, 1, 7999⟩
      ∧ ({ up.intercom with mode := .privateTalk } : Intercom).mode = .privateTalk := by
  repeat' apply And.intro
  all_goals decide

/-- Every mode entered from OFF, push-to-talk held and released, the mode already held, and an unlisted value. -/
theorem witness_TalkModesDecideTheWantedPaths :
    Ready up .console
      ∧ talkModeOf 1 = some .duplex
      ∧ talkModeOf 2 = some .ptt
      ∧ talkModeOf 3 = some .privateTalk
      ∧ TalkMode.privateTalk ≠ up.intercom.mode
      ∧ up.intercom.held = false
      ∧ ({ up.intercom with held := true } : Intercom).held = true
      ∧ up.intercom.chime = none
      ∧ up.intercom.playing = none
      ∧ up.intercom.mode = .off
      ∧ talkModeOf 0 = some up.intercom.mode
      ∧ 3 < (4 : Byte).toNat
      ∧ ({ up.intercom with playing := some ⟨0, 960, 0⟩ } : Intercom).playing.isSome
      ∧ ({ up.intercom with mode := .duplex, fr := { up.intercom.fr with state := .opened } } : Intercom).fr.state = .opened := by
  repeat' apply And.intro
  all_goals decide

/-- Volumes 15 and 16, a path 2, prompts with none, one and two queued, tones 2 and 3, and selects. -/
theorem witness_IntercomRequestsStoreReadAndClear :
    Ready up .console
      ∧ (15 : Byte).toNat ≤ 15
      ∧ 1 < (2 : Byte).toNat
      ∧ 15 < (16 : Byte).toNat
      ∧ Ready up .payment
      ∧ (2 : Byte).toNat ≤ 2
      ∧ up.intercom.playing = none
      ∧ up.intercom.waiting = []
      ∧ ({ up.intercom with playing := some ⟨0, 960, 0⟩ } : Intercom).playing.isSome
      ∧ ({ up.intercom with waiting := [1] } : Intercom).waiting ≠ []
      ∧ 2 < (3 : Byte).toNat
      ∧ Ready up .fleet
      ∧ monitorOf 3 = some .mix
      ∧ 3 < (4 : Byte).toNat
      ∧ Kind.offered .intercomClear .console = true := by
  repeat' apply And.intro
  all_goals decide

/-- A part one reading before a press is taken. -/
def aboutToPress (st : AlarmState) (log : List AlarmEntry) : State := { onShift with alarm := ⟨st, log, true, 49, 0⟩ }

/-- An entry of the alarm log. -/
def alarmEntry (presses : Nat) : AlarmEntry := ⟨now, none, presses, .free, .free, .free⟩

/-- The fiftieth reading of the line while QUIET; an ACTIVE alarm and a QUIET one. -/
theorem witness_TheAlarmIsRaisedAndStoodDown :
    (aboutToPress .quiet []).power = .running
      ∧ (aboutToPress .quiet []).partClear = .idle
      ∧ (aboutToPress .quiet []).sign.test = none
      ∧ (aboutToPress .quiet []).fareNext = false
      ∧ linesAlarm.alarm = true
      ∧ (aboutToPress .quiet []).alarm.armed = true
      ∧ (aboutToPress .quiet []).alarm.pressRun = 49
      ∧ (aboutToPress .quiet []).alarm.state = .quiet
      ∧ 8 ≤ (List.replicate 8 (alarmEntry 1)).length
      ∧ Ready (aboutToPress .active [alarmEntry 1]) .fleet
      ∧ (aboutToPress .active [alarmEntry 1]).alarm.state = .active
      ∧ (aboutToPress .active [alarmEntry 1]).alarm.log = [] ++ [alarmEntry 1]
      ∧ (aboutToPress .quiet []).intercom.mode ≠ .privateTalk
      ∧ ({ up.intercom with mode := .privateTalk } : Intercom).callPressed Lines.reset.call = false
      ∧ ambientTurns (aboutToPress .quiet []).sign linesAlarm.night = false
      ∧ (aboutToPress .active [alarmEntry 1]).sign.test = none := by
  repeat' apply And.intro
  all_goals decide

/-- The fiftieth reading while ACTIVE, at 254 presses and at 255. -/
theorem witness_PressAgainCountsInTheNewestEntry :
    (aboutToPress .active [alarmEntry 254]).power = .running
      ∧ (aboutToPress .active [alarmEntry 254]).partClear = .idle
      ∧ linesAlarm.alarm = true
      ∧ (aboutToPress .active [alarmEntry 254]).alarm.armed = true
      ∧ (aboutToPress .active [alarmEntry 254]).alarm.pressRun = 49
      ∧ (aboutToPress .active [alarmEntry 254]).alarm.state = .active
      ∧ (aboutToPress .active [alarmEntry 254]).alarm.log = [] ++ [alarmEntry 254]
      ∧ (aboutToPress .active [alarmEntry 255]).alarm.log = [] ++ [alarmEntry 255] := by
  repeat' apply And.intro
  all_goals decide

/-- A part whose alarm is ACTIVE: its log, the flash, the ALARM lamp, the monitor and the Fleet port's notices differ from `ready`'s. -/
def alarmed : State :=
  { ready with
    alarm := { ready.alarm with state := .active, log := [alarmEntry 1] }
    sign := { ready.sign with flash := some ⟨true, 1⟩, lamps := { ready.sign.lamps with alarm := { Lamp.dark with level := 255 } } }
    intercom := { ready.intercom with monitor := .mix, monitorOut := 3 }
    ports := ready.ports.put .fleet ((ready.port .fleet).add .alarm) }

/-- Two states apart in the alarm alone, the alarms in different states and in one; a kind the console is offered; events that clear the
part and events that do not; a press that is taken and one that is not; a phase that ends and one that does not. -/
theorem witness_ConsoleLearnsNothingOfTheAlarm :
    AlarmApart ready alarmed
      ∧ AlarmApart ready { alarmed with alarm := ready.alarm }
      ∧ ready.alarm.state = .quiet
      ∧ alarmed.alarm.state = .active
      ∧ Kind.offered .readHire .console = true
      ∧ Kind.offered .signOverride .console = true
      ∧ (∀ l, Instr.tick Lines.reset ≠ .alarmPress l ∧ Instr.tick Lines.reset ≠ .flashPhase l)
      ∧ (alarmed.port .fleet).receive = (ready.port .fleet).receive
      ∧ (alarmed.port .fleet).outstanding = (ready.port .fleet).outstanding
      ∧ ¬ClearsPart ready (.tick Lines.reset)
      ∧ ¬ClearsPart ready (.clearPart .console 0)
      ∧ ¬ClearsPart ready (.writeStart .fleet ⟨[Kind.book.byte], true⟩)
      ∧ ClearsPart ready (.clearPart .fleet 0)
      ∧ ClearsPart ready (.writeStart .fleet ⟨[Kind.clearPart.byte, 0], true⟩)
      ∧ ClearsPart (ready.setReceive .fleet (some [Kind.clearPart.byte])) (.writeContinue .fleet ⟨[0], true⟩)
      ∧ (aboutToPress .quiet []).alarm.pressTaken linesAlarm.alarm = true
      ∧ (aboutToPress .quiet []).alarm.pressTaken Lines.reset.alarm = false
      ∧ alarmed.phaseEnds = true
      ∧ ready.phaseEnds = false := by
  refine ⟨rfl, rfl, ?_⟩
  repeat' apply And.intro
  all_goals first
    | decide
    | (intro l; exact ⟨by simp, by simp⟩)
    | (unfold ClearsPart; decide)

/-- What a next state of an event says of two such states, met by a tick. -/
theorem witness_ticks_of_states_apart :
    ∃ t v, exec (.tick Lines.reset) ready = .next t ∧ exec (.tick Lines.reset) alarmed = .next v := ⟨_, _, rfl, rfl⟩

/-- A faulted journal whose records are all acknowledged, in a Part clear. -/
def recovering (pc : PartClear) : State :=
  { ready with partClear := pc, journal := { ready.journal with
      state := .fault .reserve, queue := [], inFlight := none, nextSeq := 5, acked := 4 } }

/-- A Part clear accepted and refused for each reason; plain, waiting without a recovery due, with one due, and recovering. -/
theorem witness_PartClearRunsItsCourse :
    Ready ready .fleet
      ∧ ready.tariffs.activation = none
      ∧ ready.tariffs.configWrite = none
      ∧ ready.partClear = .idle
      ∧ ready.shift.state = .closed
      ∧ ready.alarm.state = .quiet
      ∧ ({ ready with partClear := .plain } : State).partClear ≠ .idle
      ∧ onShift.shift.state ≠ .closed
      ∧ ({ ready.alarm with state := .active } : Alarm).state = .active
      ∧ (recovering .plain).power = .running
      ∧ (recovering .plain).journal.queue = []
      ∧ (recovering .plain).fareNext = false
      ∧ Lines.reset.alarm = false
      ∧ (recovering .plain).partClear = .plain
      ∧ ({ (recovering .waiting).journal with acked := 3 } : Journal).recoveryDue = false
      ∧ (recovering .waiting).partClear = .waiting
      ∧ (recovering .waiting).journal.recoveryDue = true
      ∧ (recovering .recovering).partClear = .recovering
      ∧ [0, 1, 2, 3, 4, 5, 6, 7].length ≤ 8
      ∧ 8 < [0, 1, 2, 3, 4, 5, 6, 7, 8].length := by
  repeat' apply And.intro
  all_goals decide

/-- A part in each phase of its supply, and an event that a frozen part does not take. -/
theorem witness_WarningAndFreezeStopTheWork :
    up.power = .running
      ∧ ({ up with power := .failing } : State).power = .failing
      ∧ ({ up with power := .frozen } : State).power = .frozen
      ∧ ({ up with power := .failing } : State).power ≠ .running
      ∧ Instr.wheelPulse ≠ .rtcSecond := by
  repeat' apply And.intro
  all_goals decide

/-- A frozen part with its mark and check word: a hire METERING, one STOPPED and covered, one BOOKED; the alarm ACTIVE; its sections stored
sound; a filing in flight. -/
def frozenCab : State :=
  { onShift with
    power := .frozen, closedMark := true, checkWord := true
    hires := ⟨ride, { ended with payments := [entryOf .cash 300 .approved] }, { Hire.cleared with stage := .booked }⟩
    alarm := { onShift.alarm with state := .active, log := [alarmEntry 1] }
    tariffs := { onShift.tariffs with configSection := ⟨some ConfigRecord.lost, none, false⟩, tariffSection := ⟨some tariffs, none, false⟩ } }

/-- A start-up with everything sound, all its conditions met by one state. -/
theorem witness_StartUpTakesUpTheRetainedState :
    (frozenCab.journal.steady ∨ (frozenCab.journal.queue = [] ∧ ∀ sl, (frozenCab.hire sl).released.settled = false))
      ∧ frozenCab.tariffs.configBad soundStart = false
      ∧ frozenCab.tariffs.tariffBad soundStart = false
      ∧ frozenCab.power = .frozen
      ∧ frozenCab.closedMark = true
      ∧ frozenCab.checkWord = true
      ∧ soundStart.retentionGood = true
      ∧ (frozenCab.hire .a).stage = .metering
      ∧ (frozenCab.hire .b).stage = .stopped
      ∧ (frozenCab.hire .b).released.settled = true
      ∧ (frozenCab.hire .c).running = false
      ∧ (frozenCab.hire .c).stage ≠ .stopped
      ∧ frozenCab.partClear ≠ .recovering
      ∧ frozenCab.journal.inFlight.isSome = true
      ∧ frozenCab.alarm.state = .active
      ∧ frozenCab.hires.running ≠ 0 := by
  refine ⟨Or.inl (Or.inl (by decide)), ?_⟩
  repeat' apply And.intro
  all_goals decide

/-- The same with both sections bad. -/
theorem witness_start_up_with_bad_sections :
    ((aboard ride).journal.steady ∨ ((aboard ride).journal.queue = [] ∧ ∀ sl, ((aboard ride).hire sl).released.settled = false))
      ∧ (aboard ride).tariffs.tariffBad soundStart = true
      ∧ (aboard ride).tariffs.configBad soundStart = true
      ∧ ((aboard ride).hire .a).stage ≠ .free
      ∧ ((aboard ride).hire .a).stage ≠ .booked
      ∧ (aboard ride).shift.state ≠ .closed
      ∧ CountersLaw (aboard ride).shift := by
  refine ⟨Or.inl (Or.inl (by decide)), ?_⟩
  repeat' apply And.intro
  all_goals first
    | rfl
    | decide

/-- A recovery cut off in a journal whose writing is closed, two pages erased, sections sound. -/
def cutOff : State :=
  { frozenCab with
    hires := State.reset.hires, partClear := .recovering
    shift := { frozenCab.shift with state := .closed }
    journal := { frozenCab.journal with
      state := .fault .retiredList, queue := [], inFlight := none, store := [(16, .whole 1 ⟨0, now, .retentionLost⟩)], nextSeq := 2, acked := 1 } }

theorem witness_start_up_after_a_recovery_cut_off :
    (cutOff.journal.queue = [] ∧ ∀ sl, (cutOff.hire sl).released.settled = false)
      ∧ ¬cutOff.journal.steady
      ∧ cutOff.partClear = .recovering
      ∧ cutOff.tariffs.configBad { soundStart with erased := [0, 1] } = false
      ∧ cutOff.tariffs.tariffBad { soundStart with erased := [0, 1] } = false
      ∧ 16 / 16 ∈ ({ soundStart with erased := [0, 1] } : StartUp).erased
      ∧ 4095 / 16 ∉ ({ soundStart with erased := [0, 1] } : StartUp).erased := by
  refine ⟨⟨rfl, fun sl => by cases sl <;> decide⟩, fun h => ?_, ?_⟩
  · rcases h with h | h
    · exact absurd h (by decide)
    · exact absurd h.1 (by decide)
  repeat' apply And.intro
  all_goals decide

/-- A covered hire at a start-up whose journal has no slot, in a shift of a given state with another hire in slot A. -/
def noRoom (st : ShiftState) (other : Hire) : State :=
  { frozenCab with
    hires := ⟨other, (frozenCab.hire .b), Hire.cleared⟩
    shift := { frozenCab.shift with state := st, closeTime := some now }
    journal := { frozenCab.journal with state := .fault .retiredList, queue := [], inFlight := none } }

/-- The last hire of a CLOSING shift goes unfiled, and so does one beside a hire that still runs or in an OPEN shift; a slot that is not
free while writing is open. -/
theorem witness_start_up_sends_hires_unfiled :
    (noRoom .closing Hire.cleared).journal.inFlight = none
      ∧ (noRoom .closing Hire.cleared).journal.queue = []
      ∧ (noRoom .closing Hire.cleared).journal.writingOpen = false
      ∧ (noRoom .closing Hire.cleared).tariffs.configBad soundStart = false
      ∧ (noRoom .closing Hire.cleared).tariffs.tariffBad soundStart = false
      ∧ [SlotId.a, .b, .c].filter (fun sl => ((noRoom .closing Hire.cleared).hire sl).released.settled) = [.b]
      ∧ (noRoom .closing Hire.cleared).shift.state = .closing
      ∧ (noRoom .closing Hire.cleared).shift.summary = false
      ∧ (∀ sl, sl ∉ [SlotId.b] → ((noRoom .closing Hire.cleared).hire sl).stage = .free)
      ∧ (noRoom .closing Hire.cleared).shift.driver = some 7
      ∧ (noRoom .closing Hire.cleared).shift.openTime = some now
      ∧ (noRoom .closing Hire.cleared).shift.closeTime = some now
      ∧ SlotId.a ∉ [SlotId.b]
      ∧ ((noRoom .closing ride).hire .a).stage ≠ .free
      ∧ (noRoom .opened Hire.cleared).shift.state ≠ .closing
      ∧ frozenCab.partClear ≠ .recovering
      ∧ ({ frozenCab.journal with store := [(frozenCab.journal.writer.index, .whole 1 ⟨0, now, .retentionLost⟩)], nextSeq := 2 } : Journal).slotFree frozenCab.journal.writer = false := by
  repeat' apply And.intro
  all_goals first
    | decide
    | (intro sl; cases sl <;> decide)

/-- A low-water level loaded that is not the one held, and one that is; none of the hires is settled. -/
theorem witness_start_up_loads_a_level :
    (∀ sl, (cutOff.hire sl).released.settled = false)
      ∧ (cutOff.tariffs.loaded soundStart).config.lowWater = cutOff.tariffs.config.lowWater
      ∧ (({ cutOff.tariffs with config := { cutOff.tariffs.config with lowWater := 100 } } : TariffStore).loaded soundStart).config.lowWater ≠ 100
      ∧ up.tariffs.config.lowWater = 64 := by
  refine ⟨fun sl => by cases sl <;> decide, ?_⟩
  repeat' apply And.intro
  all_goals decide

/-- A store with a damaged slot in each of nine pages. -/
def damagedStore : JournalStore := (List.range 9).map (fun p => (16 * p, .damaged))

/-- A mark, a check word and contents that fail; stores with no record, with one, with a damaged slot and with too many; a filing and a recovery in flight, and none. -/
theorem witness_StartUpWithoutRetentionStartsAfresh :
    up.closedMark = false
      ∧ ({ up with closedMark := true } : State).checkWord = false
      ∧ ({ soundStart with retentionGood := false } : StartUp).retentionGood = false
      ∧ (0, SlotContent.whole 1 ⟨0, now, .retentionLost⟩) ∈ twoRecords.journal.store
      ∧ (1 : Nat) < 4294967295
      ∧ (damagedPages [(4095, .damaged)]) = [255]
      ∧ 1 ≤ (rebuiltJournal up.journal.store 0).free
      ∧ (rebuiltJournal up.journal.store 0).slotFree (rebuiltJournal up.journal.store 0).writer = true
      ∧ (rebuiltJournal damagedStore 0).free < 1
      ∧ up.partClear ≠ .recovering
      ∧ ({ up.journal with queue := [] } : Journal).queue = []
      ∧ up.journal.inFlight = some ⟨1, ⟨0, 0⟩⟩
      ∧ up.journal.queue = ⟨0, ClockTime.first, .retentionLost⟩ :: []
      ∧ StoreLaw up.journal
      ∧ ({ up with partClear := .recovering } : State).partClear = .recovering
      ∧ ({ up.journal with inFlight := none } : Journal).inFlight = none := by
  repeat' apply And.intro
  all_goals first
    | decide +kernel
    | (unfold StoreLaw storeCanonical; decide)

/-- A refusal. -/
theorem witness_RefusedRequestsChangeNothing :
    Kind.closeUnpaid ≠ .load
      ∧ Kind.closeUnpaid ≠ .compare
      ∧ (checkedOwner .console [0] .closeUnpaid (aboard ride)).2.payloads = (Code.badStage.byte :: []) :: []
      ∧ Code.badStage.byte ≠ Code.ok.byte
      ∧ Code.badStage.byte ≠ Code.accepted.byte
      ∧ Code.badStage.byte ≠ Code.late.byte
      ∧ Code.badStage.byte ≠ Code.skipped.byte := by
  repeat' apply And.intro
  all_goals decide

/-- Commands of the lists that are answered by a next state. -/
theorem witness_CommandsKeepToTheirOwnState :
    exec (.readShift .fleet 0) up = .next (up.replied .fleet .readShift 0 .ok up.shift.bytes)
      ∧ exec (.cancelBooking .fleet 0 0) up = .next (up.replied .fleet .cancelBooking 0 .badStage [])
      ∧ (∀ sl, slotOf 0 = some sl → ((aboard (claimedTo 20)).hire sl).claimedBy .console = false)
      ∧ ((aboard (claimedTo 20)).hire .a).claimedBy .payment = true
      ∧ (∃ t, exec (.readHire .console 0 0) (aboard (claimedTo 20)) = .next t) := by
  refine ⟨rfl, rfl, ?_, by decide, ⟨_, rfl⟩⟩
  intro sl _
  cases sl <;> decide

/-- Every law of the invariants holds in a state with a claimed hire aboard, lamps lit and a half-duplex talk mode. -/
theorem witness_laws : LampLaw onShift.rederive.sign ∧ TalkLaw { up.intercom with mode := .ptt } ∧ CeilingLaw onShift.shift
    ∧ ClaimLaw (aboard (claimedTo 9000)).hires ∧ BalanceLaw (paying .card .pending).hires ∧ StoreLaw twoRecords.journal
    ∧ CountersLaw onShift.shift ∧ onShift.clock.valid = true ∧ AlarmLaw (aboutToPress .active [alarmEntry 1]).alarm := by
  refine ⟨⟨.inl ⟨rfl, rfl⟩, .inr (.inr ⟨by decide, by decide⟩), fun t h => nomatch h⟩, ?_, by unfold CeilingLaw; decide, ⟨?_, ?_, ?_, ?_⟩, ?_, ?_, rfl,
    by decide, ⟨by decide, fun _ => by decide⟩⟩
  · unfold TalkLaw; decide
  · exact fun _ => rfl
  · intro h; cases h
  · intro h; cases h
  · intro p; cases p <;> decide
  · intro sl; cases sl <;> decide
  · unfold StoreLaw storeCanonical; decide

end Sys2Proof.Tests
end

section
/-! The part after reset (R1, R28, R51, R59, R96, R111, R119, R132, R145, R165, R173, R186, R187): its values and the laws it meets. -/

namespace Sys2Proof.Machine

/-! ### The laws -/

theorem reset_lampLaw : LampLaw State.reset.sign := ⟨.inl ⟨rfl, rfl⟩, .inl ⟨rfl, rfl⟩, nofun⟩

theorem reset_talkLaw : TalkLaw State.reset.intercom := fun half => absurd half (by decide)

theorem reset_claimLaw : ClaimLaw State.reset.hires := ⟨nofun, nofun, nofun, fun p => by cases p <;> decide⟩

theorem reset_balanceLaw : BalanceLaw State.reset.hires := fun sl => by cases sl <;> decide

theorem blank_shaped : TariffSet.blank.shaped := ⟨rfl, rfl, rfl⟩

theorem reset_placesLaw : PlacesLaw State.reset.tariffs := ⟨blank_shaped, blank_shaped, nofun, nofun, nofun⟩

theorem reset_maskLaw : MaskLaw State.reset.ports := fun p => by cases p <;> decide

theorem reset_countersLaw : CountersLaw State.reset.shift := List.length_replicate

theorem reset_alarmLaw : AlarmLaw State.reset.alarm := ⟨Nat.zero_le _, nofun⟩

/-! ### The values kept per slot, lamp and port -/

theorem reset_hire (sl : SlotId) : State.reset.hire sl = Hire.cleared := by
  cases sl <;> rfl

theorem reset_lamp (i : LampId) : State.reset.sign.lamps.get i = Lamp.dark := by
  cases i <;> rfl

theorem reset_port (p : PortId) : State.reset.port p = Port.reset (deliveredMask p) (defaultStageMask p) := by
  cases p <;> rfl

/-- Settles O3: every value is the one `State.reset` is defined with, and each law holds of them. -/
theorem resetHoldsTheValuesOfANewPart : Obligations.ResetHoldsTheValuesOfANewPart := by
  refine ⟨⟨reset_hire, ?_⟩, reset_lampLaw, reset_talkLaw, Nat.le_refl 0, reset_claimLaw, reset_balanceLaw, reset_placesLaw,
    reset_store_canon, reset_maskLaw, reset_countersLaw, by decide, reset_alarmLaw⟩
  refine ⟨rfl, rfl, rfl, rfl, rfl, rfl, rfl, rfl, rfl, rfl, rfl, rfl, rfl, rfl, rfl, rfl, rfl, rfl, rfl, rfl, rfl, rfl, rfl, rfl, rfl, rfl,
    rfl, rfl, rfl, rfl, rfl, fun i => ?_, rfl, rfl, rfl, rfl, rfl, rfl, rfl, fun p => ?_, rfl, rfl⟩
  · rw [reset_lamp]
    exact ⟨rfl, rfl⟩
  · rw [reset_port]
    exact ⟨rfl, rfl, rfl, rfl, rfl, rfl, rfl⟩

end Sys2Proof.Machine
end

section
/-! Changes of stage, the settlement check, the completions of a filing and the close of the shift (R5, R19, R23, R100 to R109, R133). -/

namespace Sys2Proof.Machine

/-! ### Changes of stage -/

/-- The stage notice reaches each port by its own mask (R5). -/
theorem ports_get_stageEntered (q : Ports) (sl : SlotId) (st : Stage) (p : PortId) :
    (q.stageEntered sl st).get p = (q.get p).stageEntered sl st := by
  cases p <;> rfl

/-- The target stands as it is derived after a change of stage (R133). -/
theorem enterStage_target (s : State) (sl : SlotId) (h : Hire) :
    (s.enterStage sl h).sign.target = (s.enterStage sl h).derivedTarget := by
  unfold State.enterStage
  dsimp only
  rw [rederive_target, derivedTarget_rederive]

/-- A hire that does not meet the four conditions of R19 is left as it is. -/
theorem settle_unsettled {s : State} {sl : SlotId} (h : (s.hire sl).settled = false) : s.settle sl = s := by
  unfold State.settle
  rw [if_neg (by simp [h])]

/-- One condition of R19 that fails. -/
theorem unsettled_of {h : Hire} (fails : h.stage ≠ .stopped ∨ h.claim.isSome ∨ (∃ e ∈ h.payments, e.state = .pending) ∨ h.balance ≠ 0
    ∨ ∀ e ∈ h.payments, e.state ≠ .approved) : h.settled = false := by
  rw [Bool.eq_false_iff, ne_eq, settled_iff]
  rintro ⟨hstop, hclaim, hpend, hbal, e, he, happ⟩
  rcases fails with h | h | ⟨e', he', h⟩ | h | h
  · exact h hstop
  · simp [hclaim] at h
  · exact hpend e' he' h
  · exact h hbal
  · exact h e he happ

/-- Settles O10: `enterStage` and `settle` by what each leaves in hires, ports, sign and journal. -/
theorem stageChangesAndTheSettlementCheck : Obligations.StageChangesAndTheSettlementCheck := by
  refine ⟨fun s sl h => ⟨enterStage_hires s sl h, fun p => ?_, enterStage_target s sl h, ?_⟩, fun s sl => ⟨?_, ?_⟩⟩
  · unfold State.port
    rw [enterStage_ports, ports_get_stageEntered]
    rfl
  · rw [enterStage_hires, enterStage_ports]
    exact enterStage_only s sl h
  · intro hstop hclaim hpend hbal happ
    have hset : (s.hire sl).settled = true := (settled_iff _).2 ⟨hstop, hclaim, hpend, hbal, happ⟩
    refine ⟨?_, _, rfl, ?_⟩
    · rw [hires_settle_same, if_pos hset]
      rfl
    · rw [(settle_queue s sl).2.2.1, if_pos hset]
      rfl
  · intro fails
    exact settle_unsettled (unsettled_of fails)

/-! ### Shift counters -/

theorem countersLaw_count {x : ShiftAccounting} (hx : CountersLaw x) (id : CounterId) (n : Nat) : CountersLaw (x.count id n) := by
  unfold ShiftAccounting.count CountersLaw
  rw [List.length_set]
  exact hx

/-- The fifteen counters have fifteen places. -/
theorem place_lt (id : CounterId) : id.place < 15 := by
  cases id <;> decide

theorem place_inj {i j : CounterId} : i.place = j.place ↔ i = j := by
  constructor
  · cases i <;> cases j <;> simp [CounterId.place]
  · rintro rfl
    rfl

/-- An addition to one counter leaves the others as they were (R105). -/
theorem counter_count {x : ShiftAccounting} (hx : CountersLaw x) (id : CounterId) (n : Nat) (other : CounterId) :
    (x.count id n).counter other = if other = id then (x.counter other).add n else x.counter other := by
  have hlt : id.place < x.counters.length := by
    rw [hx]
    exact place_lt id
  unfold ShiftAccounting.counter ShiftAccounting.count
  by_cases h : other = id
  · subst h
    simp [List.getD, hlt, ShiftAccounting.counter]
  · simp [List.getD, h, List.getElem?_set_ne (fun e => h (place_inj.1 e).symm)]

/-- Additions made to counters one after another. -/
def ShiftAccounting.countAll (x : ShiftAccounting) (adds : List (CounterId × Nat)) : ShiftAccounting :=
  adds.foldl (fun y a => y.count a.1 a.2) x

/-- A counter that no addition names stands. -/
theorem counter_countAll_unnamed {x : ShiftAccounting} (hx : CountersLaw x) {adds : List (CounterId × Nat)} {id : CounterId}
    (h : id ∉ adds.map Prod.fst) : (x.countAll adds).counter id = x.counter id := by
  induction adds generalizing x with
  | nil => rfl
  | cons a rest ih =>
    obtain ⟨ha, hrest⟩ := not_or.1 (mt List.mem_cons.2 h)
    exact (ih (countersLaw_count hx a.1 a.2) hrest).trans ((counter_count hx a.1 a.2 id).trans (if_neg ha))

/-- A counter that one addition names takes that addition. -/
theorem counter_countAll_named {x : ShiftAccounting} (hx : CountersLaw x) {adds : List (CounterId × Nat)} {id : CounterId} {n : Nat}
    (distinct : (adds.map Prod.fst).Nodup) (h : (id, n) ∈ adds) : (x.countAll adds).counter id = (x.counter id).add n := by
  induction adds generalizing x with
  | nil => cases h
  | cons a rest ih =>
    obtain ⟨ha, hrest⟩ := List.nodup_cons.1 distinct
    have hx' := countersLaw_count hx a.1 a.2
    rcases List.mem_cons.1 h with rfl | h
    · exact (counter_countAll_unnamed hx' ha).trans ((counter_count hx id n id).trans (if_pos rfl))
    · have ne : id ≠ a.1 := fun e => ha (e ▸ List.mem_map_of_mem h)
      exact (ih hx' hrest h).trans (by rw [counter_count hx, if_neg ne])

/-- What a filed hire adds to each counter it adds to (R106). -/
def Hire.filedAdditions (h : Hire) : List (CounterId × Nat) :=
  [(.hiresFiled, 1), (.hiresUnpaid, if h.outcome = some .unpaid then 1 else 0), (.hiredMetres, h.metres), (.steps, h.steps),
    (.meteredTotal, h.metered), (.extrasTotal, h.extrasAmount), (.tipsTotal, approvedTips h.payments),
    (.cardTotal, approvedBy .card h.payments), (.cashTotal, approvedBy .cash h.payments),
    (.accountTotal, approvedBy .account h.payments), (.offlineCardTotal, approvedOffline h.payments)]

theorem addFiled_eq_countAll (x : ShiftAccounting) (h : Hire) : x.addFiled h = x.countAll h.filedAdditions := rfl

theorem filedAdditions_distinct (h : Hire) : (h.filedAdditions.map Prod.fst).Nodup := by
  simp [Hire.filedAdditions]

/-! ### The completion of a HIRE record -/

/-- A completion up to its summary: the accounts made, the slot FREE with its notice, the totalizer write asked for (R23). -/
theorem completeHire_parts (s : State) (sl : SlotId) : ∃ z : State, s.completeHire sl = z.beginSummary
    ∧ z.hires = s.hires.put sl Hire.cleared ∧ z.shift = (s.shift.fileHire (s.hire sl)).askTotals ∧ z.journal = s.journal
    ∧ z.ports = s.ports.stageEntered sl .free ∧ z.clock = s.clock := by
  obtain ⟨x, hx⟩ : ∃ x : State, x = { s with shift := s.shift.fileHire (s.hire sl) } := ⟨_, rfl⟩
  have e := enterStage_only x sl Hire.cleared
  refine ⟨(x.enterStage sl Hire.cleared).askTotals, by rw [hx]; rfl, ?_, ?_, ?_, ?_, ?_⟩
  · exact (congrArg State.hires e).trans (by rw [hx])
  · exact (congrArg (fun y => y.shift.askTotals) e).trans (by rw [hx])
  · exact (congrArg State.journal e).trans (by rw [hx])
  · exact (congrArg State.ports e).trans (by rw [hx]; rfl)
  · exact (congrArg State.clock e).trans (by rw [hx])

/-- The summary filing begins: the SHIFT record as the shift stands joins the queue (R102). -/
theorem beginSummary_begins {s : State} (h : s.shift.state = .closing ∧ s.shift.summary = false ∧ s.hires.allFree = true) :
    s.beginSummary.shift = { s.shift with summary := true }
      ∧ s.beginSummary.journal.queue = s.journal.queue ++ [⟨s.shift.number, s.clock, s.shiftBody⟩] := by
  have e : s.beginSummary = ({ s with
      shift := { s.shift with summary := true }
      journal := { s.journal with queue := s.journal.queue ++ [⟨s.shift.number, s.clock, s.shiftBody⟩] } } : State).updateLow := by
    unfold State.beginSummary
    rw [if_pos h]
    exact handOver_shift _ _ _ _ _
  rw [e, updateLow_shift, updateLow_journal]
  exact ⟨rfl, rfl⟩

/-- Any other shift is left as it is (R102). -/
theorem beginSummary_waits {s : State} (h : ¬(s.shift.state = .closing ∧ s.shift.summary = false ∧ s.hires.allFree = true)) :
    s.beginSummary = s := by
  unfold State.beginSummary
  rw [if_neg h]

/-- The totalizers of a filed hire are beside its counters (R106, R108). -/
theorem fileHire_counters (x : ShiftAccounting) (h : Hire) : (x.fileHire h).counters = (x.addFiled h).counters := by
  unfold ShiftAccounting.fileHire
  generalize x.addFiled h = y
  rfl

theorem askTotals_counters (x : ShiftAccounting) : x.askTotals.counters = x.counters := by
  rw [(askTotals_parts x).1]

/-- The counters after a completion are those with the hire's figures added (R106). -/
theorem completeHire_counter (s : State) (sl : SlotId) (id : CounterId) :
    (s.completeHire sl).shift.counter id = (s.shift.countAll (s.hire sl).filedAdditions).counter id := by
  obtain ⟨b, hb⟩ := completeHire_eq s sl
  have kept : (s.completeHire sl).shift.counters = (s.shift.addFiled (s.hire sl)).counters := by
    rw [← fileHire_counters, ← askTotals_counters (s.shift.fileHire _), hb]
  unfold ShiftAccounting.counter
  rw [kept, addFiled_eq_countAll]

/-- A counter the filed hire adds to takes its figure (R106). -/
theorem completeHire_counter_named {s : State} {sl : SlotId} (hx : CountersLaw s.shift) :
    ∀ a ∈ (s.hire sl).filedAdditions, (s.completeHire sl).shift.counter a.1 = (s.shift.counter a.1).add a.2 := by
  intro a ha
  rw [completeHire_counter]
  exact counter_countAll_named hx (filedAdditions_distinct _) ha

/-- The other counters stand (R106). -/
theorem completeHire_counter_unnamed {s : State} {sl : SlotId} (hx : CountersLaw s.shift) {id : CounterId}
    (h : id ∉ (s.hire sl).filedAdditions.map Prod.fst) : (s.completeHire sl).shift.counter id = s.shift.counter id := by
  rw [completeHire_counter]
  exact counter_countAll_unnamed hx h

/-- The sums of R106 over the APPROVED entries, as filters spell them. -/
theorem approvedTips_eq (ps : List Payment) : approvedTips ps = ((ps.filter (fun e => e.state = .approved)).map Payment.tip).sum := by
  rfl

theorem approvedBy_eq (m : PayMethod) (ps : List Payment) :
    approvedBy m ps = ((ps.filter (fun e => e.state = .approved ∧ e.method = m)).map Payment.amount).sum := by
  simp only [approvedBy, sumWhere, Payment.isApproved, beq_eq_decide, Bool.decide_and]

theorem approvedOffline_eq (ps : List Payment) : approvedOffline ps
    = ((ps.filter (fun e => e.state = .approved ∧ e.method = .card ∧ e.route = some .offline)).map Payment.amount).sum := by
  simp only [approvedOffline, sumWhere, Payment.isApproved, beq_eq_decide, Bool.decide_and, Bool.and_assoc]

/-- The totalizers take the filed hire's figures, wrapping (R108). -/
theorem completeHire_totals (s : State) (sl : SlotId) : (s.completeHire sl).shift.totals = s.shift.totals.addFiled (s.hire sl) := by
  obtain ⟨b, hb⟩ := completeHire_eq s sl
  rw [hb, (askTotals_parts _).1]
  rfl

theorem completeHire_asks (s : State) (sl : SlotId) : (s.completeHire sl).shift.totalsWrite.isSome = true := by
  obtain ⟨b, hb⟩ := completeHire_eq s sl
  rw [hb]
  exact (askTotals_parts _).2

/-- The notice of a slot that becomes FREE reaches each port whose mask includes it (R5, R23). -/
theorem completeHire_notice (s : State) (sl : SlotId) (p : PortId) (h : (s.port p).stageMask.getLsbD 0 = true) :
    ((s.completeHire sl).port p).holds (stageKind sl) = true := by
  obtain ⟨z, hz, -, -, -, zports, -⟩ := completeHire_parts s sl
  have atPort : (z.port p).holds (stageKind sl) = true := by
    unfold State.port
    rw [zports, ports_get_stageEntered]
    unfold Port.stageEntered
    rw [if_pos (by exact h)]
    exact add_self _ _
  rw [hz]
  exact (mild_beginSummary z).p p _ atPort

/-! ### The completion of a SHIFT record -/

/-- A kind for all ports is held by each of them (R181). -/
theorem notifyAll_holds (s : State) (k : NoticeKind) (p : PortId) : ((s.notifyAll k).port p).holds k = true := by
  cases p <;> exact add_self _ k

/-- With the shift CLOSED no front lamp is called for (R133). -/
theorem derivedTarget_closed {s : State} (h : s.shift.state = .closed) : s.derivedTarget = ⟨none, false⟩ := by
  unfold State.derivedTarget
  rw [h]
  rfl

/-- The close complete: the shift CLOSED with its totalizer write asked for, every port told, the lamps derived, and nothing else
(R103). -/
theorem completeShift_parts (s : State) :
    s.completeShift.shift = { s.shift with state := .closed, summary := false }.askTotals
      ∧ (∀ p, (s.completeShift.port p).holds .shiftClosed = true) ∧ s.completeShift.sign.target = ⟨none, false⟩
      ∧ s.completeShift.journal = s.journal ∧ s.completeShift.hires = s.hires := by
  obtain ⟨x, hx⟩ : ∃ x : State, x = { s with shift := { s.shift with state := .closed, summary := false } } := ⟨_, rfl⟩
  have ht : s.completeShift = (x.notifyAll .shiftClosed).rederive.askTotals := by
    rw [hx]
    rfl
  have only := rederive_only (x.notifyAll .shiftClosed)
  have closed : (x.notifyAll .shiftClosed).shift.state = .closed := by
    rw [hx]
    rfl
  rw [ht]
  refine ⟨?_, fun p => ?_, ?_, ?_, ?_⟩
  · exact (congrArg (fun y => y.shift.askTotals) only).trans (by subst hx; rfl)
  · exact (congrArg (fun y => (y.port p).holds .shiftClosed) only).trans (notifyAll_holds x .shiftClosed p)
  · exact (rederive_target _).trans (derivedTarget_closed closed)
  · exact (congrArg State.journal only).trans (by rw [hx]; rfl)
  · exact (congrArg State.hires only).trans (by rw [hx]; rfl)

/-- Settles O11: `completeHire` by its accounts and its parts, `completeShift` by the shift it leaves. -/
theorem filedRecordsAreAccounted : Obligations.FiledRecordsAreAccounted := by
  refine ⟨?_, fun s => ⟨_, rfl, ?_⟩⟩
  · rintro s sl _ _ rfl rfl
    obtain ⟨z, hz, zhires, zshift, zjournal, zports, zclock⟩ := completeHire_parts s sl
    have held := filed_held s.shift (s.hire sl)
    rw [← zshift] at held
    obtain ⟨zstate, zsummary, znumber, zdriver, zopen, zclose⟩ := held
    refine ⟨?_, fun hx => ?_, completeHire_totals s sl, completeHire_asks s sl, completeHire_notice s sl, fun notClosing => ?_,
      fun closing summary allFree => ?_⟩
    · rw [hz, beginSummary_hires, zhires]
    · have accounts := completeHire_counter_named (sl := sl) hx
      simp only [Hire.filedAdditions, List.forall_mem_cons, approvedTips_eq, approvedBy_eq, approvedOffline_eq] at accounts
      obtain ⟨h1, h2, h3, h5, h6, h7, h8, h9, h10, h11, h12, -⟩ := accounts
      refine ⟨h1, h2, h3, h5, h6, h7, h8, h9, h10, h11, h12, fun id hid => completeHire_counter_unnamed hx ?_⟩
      simp only [List.mem_cons, List.not_mem_nil, or_false] at hid
      rcases hid with rfl | rfl | rfl | rfl <;> simp [Hire.filedAdditions]
    · rw [hz, beginSummary_waits (fun h => notClosing (zstate.symm.trans h.1))]
      refine ⟨zjournal, fun p => ?_⟩
      unfold State.port
      rw [zports, ports_get_stageEntered]
      rfl
    · obtain ⟨yshift, yqueue⟩ := beginSummary_begins (s := z)
        ⟨zstate.trans closing, zsummary.trans summary, by rw [zhires]; exact allFree⟩
      rw [hz, yshift, yqueue]
      unfold State.shiftBody
      rw [zjournal, znumber, zdriver, zopen, zclose, zclock]
      exact ⟨rfl, rfl⟩
  · obtain ⟨tshift, told, dark, tjournal, thires⟩ := completeShift_parts s
    obtain ⟨kept, asked⟩ := askTotals_parts { s.shift with state := .closed, summary := false }
    refine ⟨?_, ?_, told, ?_, ?_, ?_, ?_, ?_, ?_, ?_, ?_, ?_, dark, tjournal, thires⟩ <;> rw [tshift]
    case refine_3 => exact asked
    all_goals rw [kept]

end Sys2Proof.Machine
end

section
/-! The requests of the Hire Controller: what each owner does once its checks are read as propositions (R6 to R21), and the statements
on them. -/

namespace Sys2Proof.Machine

/-! ### A request answered by its owner -/

/-- An owner that does its work answers OK with its items. -/
theorem request_done {s t : State} {p : PortId} {k : Kind} {tag : Byte} {owner : Owner} {items : List Byte} (h : Ready s p)
    (hk : k.offered p = true) (work : owner s = done t items) : request p k tag owner s = .next (t.replied p k tag .ok items) := by
  rw [request_ready h hk, work]
  rfl

/-- An owner that refuses answers with its code, and the state stands (R179). -/
theorem request_refused {s : State} {p : PortId} {k : Kind} {tag : Byte} {owner : Owner} {c : Code} (h : Ready s p)
    (hk : k.offered p = true) (work : owner s = (s, .refuse c)) : request p k tag owner s = .next (s.replied p k tag c []) := by
  rw [request_ready h hk, work]
  rfl

/-! ### Conditions of the checks -/

/-- A seat may be taken under pooling, or when every other slot is FREE (R7, R10). -/
theorem seatAllowed_iff (s : State) (sl : SlotId) : s.seatAllowed sl = true ↔ s.shift.pooling = true ∨ AloneIn s sl := by
  simp [State.seatAllowed, othersFree_iff]

theorem roomForHire_iff (s : State) : s.roomForHire = true ↔ s.hires.occupied + 2 ≤ s.journal.free := by
  simp [State.roomForHire]

theorem inFault_false_iff (j : Journal) : j.inFault = false ↔ j.state = .normal := by
  simp [Journal.inFault]

theorem running_iff (h : Hire) : h.running = true ↔ h.stage = .engaged ∨ h.stage = .metering := by
  simp [Hire.running]

theorem extrasOpen_iff (h : Hire) :
    h.extrasOpen = true ↔ h.stage = .engaged ∨ h.stage = .metering ∨ h.stage = .suspended ∨ h.stage = .stopped := by
  simp [Hire.extrasOpen, running_iff, or_assoc]

/-! ### Bookings -/

/-- BOOK with every check of R7 passing. -/
theorem bookOwner_done {slot : Byte} {sl : SlotId} {s : State} {ref : BitVec 64} {d : Half} (hsl : slotOf slot = some sl)
    (hd : 1 ≤ d.toNat ∧ d.toNat ≤ 3600) (hshift : s.shift.state = .opened) (hfree : (s.hire sl).stage = .free)
    (hseat : s.shift.pooling = true ∨ AloneIn s sl) (hj : s.journal.state = .normal)
    (hroom : s.hires.occupied + 2 ≤ s.journal.free) :
    bookOwner slot ref d s = done (s.enterStage sl (bookedHire ref (s.clock.plus d.toNat))) [] := by
  unfold bookOwner
  rw [withSlot_some hsl]
  apply checked_ok
  simp [firstRefusal, hd, hshift, hfree, (seatAllowed_iff s sl).2 hseat, (inFault_false_iff _).2 hj, (roomForHire_iff s).2 hroom]

/-- CANCEL_BOOKING frees a BOOKED slot (R9). -/
theorem cancelBookingOwner_done {slot : Byte} {sl : SlotId} {s : State} (hsl : slotOf slot = some sl) (h : (s.hire sl).stage = .booked) :
    cancelBookingOwner slot s = done (s.enterStage sl Hire.cleared) [] := by
  unfold cancelBookingOwner
  rw [withSlot_some hsl]
  exact checked_ok (by simp [firstRefusal, h])

/-- CANCEL_BOOKING is refused on any other slot (R9). -/
theorem cancelBookingOwner_refused {slot : Byte} {sl : SlotId} {s : State} (hsl : slotOf slot = some sl)
    (h : (s.hire sl).stage ≠ .booked) : cancelBookingOwner slot s = (s, .refuse .badStage) := by
  unfold cancelBookingOwner
  rw [withSlot_some hsl]
  exact checked_no (by simp [firstRefusal, h])

/-! ### Closing unpaid and reading -/

/-- CLOSE_UNPAID files an unclaimed STOPPED hire with nothing PENDING (R20). -/
theorem closeUnpaidOwner_done {slot : Byte} {sl : SlotId} {s : State} (hsl : slotOf slot = some sl) (h : (s.hire sl).stage = .stopped)
    (hc : (s.hire sl).claim = none) (hp : ∀ e ∈ (s.hire sl).payments, e.state ≠ .pending) :
    closeUnpaidOwner slot s = done (s.enterFiling sl (if (s.hire sl).balance = 0 then .paid else .unpaid)).fileOn [] := by
  unfold closeUnpaidOwner
  rw [withSlot_some hsl]
  exact checked_ok (by simpa [fr_cons, firstRefusal, h, hc, isPending_false] using hp)

/-- CLOSE_UNPAID of a claimed hire is refused (R20). -/
theorem closeUnpaidOwner_claimed {slot : Byte} {sl : SlotId} {s : State} (hsl : slotOf slot = some sl) (h : (s.hire sl).stage = .stopped)
    (hc : (s.hire sl).claim.isSome) : closeUnpaidOwner slot s = (s, .refuse .claimed) := by
  unfold closeUnpaidOwner
  rw [withSlot_some hsl]
  exact checked_no (by simp [firstRefusal, h, Option.isNone_eq_false_iff.2 hc])

/-- CLOSE_UNPAID of a hire that is not STOPPED is refused (R20). -/
theorem closeUnpaidOwner_badStage {slot : Byte} {sl : SlotId} {s : State} (hsl : slotOf slot = some sl)
    (h : (s.hire sl).stage ≠ .stopped) : closeUnpaidOwner slot s = (s, .refuse .badStage) := by
  unfold closeUnpaidOwner
  rw [withSlot_some hsl]
  exact checked_no (by simp [firstRefusal, h])

/-- READ_HIRE answers with the record before the renewal of the reader's own claim (R6, R75). -/
theorem readHireOwner_done {p : PortId} {slot : Byte} {sl : SlotId} {s : State} (hsl : slotOf slot = some sl) :
    readHireOwner p slot s
      = done (s.renew p sl) (if (s.hire sl).stage = .free then [0] else (s.hire sl).bytes s.timeBase) := by
  unfold readHireOwner
  rw [withSlot_some hsl]
  rfl

theorem readHireOwner_noSuch {p : PortId} {slot : Byte} {s : State} (hsl : slotOf slot = none) :
    readHireOwner p slot s = (s, .refuse .noSuch) := by
  unfold readHireOwner withSlot
  rw [hsl]
  rfl

theorem readHire_offered (p : PortId) : Kind.readHire.offered p = true := by
  cases p <;> rfl

/-- A port's own claim is renewed (R75). -/
theorem renew_claimant {s : State} {p : PortId} {sl : SlotId} (h : (s.hire sl).claimedBy p = true) :
    s.renew p sl = s.putHire sl { s.hire sl with claim := some ⟨p, s.timeBase + s.tariffs.config.claimTimeout * 100⟩ } := by
  unfold State.renew
  rw [if_pos h]
  rfl

/-- A port without the claim renews nothing (R75). -/
theorem renew_other {s : State} {p : PortId} {sl : SlotId} (h : (s.hire sl).claimedBy p = false) : s.renew p sl = s := by
  unfold State.renew
  rw [if_neg (by simp [h])]

/-- Settles O17: each request by its owner's work, and READ_HIRE by whether the reader holds the claim. -/
theorem bookingsClosesAndReads : Obligations.BookingsClosesAndReads := by
  refine ⟨fun tag slot sl s ready hsl => ⟨?_, ?_, ?_⟩, fun tag slot sl s ready hsl => ⟨?_, ?_, ?_⟩,
    fun p tag slot sl s ready hsl => ⟨?_, ?_, ?_⟩⟩
  · intro ref d hd1 hd2 hshift hfree hseat hj hroom
    exact request_done ready rfl (bookOwner_done hsl ⟨hd1, hd2⟩ hshift hfree hseat hj hroom)
  · intro h
    exact request_done ready rfl (cancelBookingOwner_done hsl h)
  · intro h
    exact request_refused ready rfl (cancelBookingOwner_refused hsl h)
  · intro h hc hp
    exact request_done ready rfl (closeUnpaidOwner_done hsl h hc hp)
  · intro h hc
    exact request_refused ready rfl (closeUnpaidOwner_claimed hsl h hc)
  · intro h
    exact request_refused ready rfl (closeUnpaidOwner_badStage hsl h)
  · intro h
    have work := readHireOwner_done (p := p) (s := s) hsl
    rw [renew_other h] at work
    exact request_done ready (readHire_offered p) work
  · intro h
    have work := readHireOwner_done (p := p) (s := s) hsl
    rw [renew_claimant h] at work
    exact request_done ready (readHire_offered p) work
  · intro b hb
    exact request_refused ready (readHire_offered p) (readHireOwner_noSuch hb)

/-! ### Starting a hire -/

/-- A hire is started METERING in a FIXED tariff or one without an initial allowance, and ENGAGED otherwise (R11). -/
theorem startStage_eq (t : Tariff) : startStage t = if t.kind = .fixed ∨ t.d0 = 0 ∧ t.t0 = 0 then .metering else .engaged := by
  unfold startStage
  cases t.kind <;> simp

/-- START_HIRE with every check of R10 passing. -/
theorem startHireOwner_done {slot choice : Byte} {sl : SlotId} {t : Tariff} {s : State} (hsl : slotOf slot = some sl)
    (hstage : (s.hire sl).stage = .free ∨ (s.hire sl).stage = .booked) (hshift : s.shift.state = .opened)
    (hj : s.journal.state = .normal) (hroom : s.hires.occupied + 2 ≤ s.journal.free) (hseat : s.shift.pooling = true ∨ AloneIn s sl)
    (hchoice : choice ≠ 0 → choice.toNat ≤ 8 ∧ t.manual = true) (ht : s.tariffs.active.tariff (s.chosenTariff choice) = some t) :
    startHireOwner slot choice s = beginHire sl (s.chosenTariff choice) t s := by
  have hplace : choice ≠ 0 → placeId choice.toNat = true := by
    intro h
    have hpos : choice.toNat ≠ 0 := fun e => h (BitVec.eq_of_toNat_eq e)
    simp [placeId, (hchoice h).1, Nat.one_le_iff_ne_zero.2 hpos]
  have hmanual : choice ≠ 0 → t.manual = true := fun h => (hchoice h).2
  unfold startHireOwner
  rw [withSlot_some hsl, checked_ok, ht]
  · exact checked_ok (by simpa [firstRefusal] using hmanual)
  · simpa [firstRefusal, hstage, hshift, (seatAllowed_iff s sl).2 hseat, (inFault_false_iff _).2 hj, (roomForHire_iff s).2 hroom]
      using hplace

/-- Settles O18: the hire is the one `startedHire` sets up. -/
theorem startHireSetsUpTheHire : Obligations.StartHireSetsUpTheHire := by
  intro tag slot choice sl t s ready hsl hstage hshift hj hroom hseat hchoice ht
  have work := startHireOwner_done hsl hstage hshift hj hroom hseat hchoice ht
  refine ⟨_, startedHire (s.chosenTariff choice) t s.nextHire s.clock (s.hire sl).booking, rfl,
    request_done ready rfl work, startStage_eq t, ?_⟩
  refine ⟨rfl, rfl, rfl, rfl, rfl, rfl, rfl, rfl, rfl, rfl, rfl, rfl, rfl, rfl, rfl, rfl, rfl, rfl, rfl, rfl, rfl, rfl, rfl, rfl, rfl,
    ?_, ?_⟩ <;> simp [startedHire, beq_eq_decide]

/-! ### Suspension and stopping -/

/-- SUSPEND holds a running hire (R13). -/
theorem suspendOwner_done {slot : Byte} {sl : SlotId} {s : State} (hsl : slotOf slot = some sl)
    (h : (s.hire sl).stage = .engaged ∨ (s.hire sl).stage = .metering) :
    suspendOwner slot s = done ((s.enterStage sl (s.hire sl).suspended).count .suspensions 1) [] := by
  unfold suspendOwner
  rw [withSlot_some hsl]
  exact checked_ok (by simp [firstRefusal, (running_iff _).2 h])

/-- RESUME of a SUSPENDED hire, with or without a pending stop (R14). -/
theorem resumeOwner_done {slot : Byte} {sl : SlotId} {s : State} (hsl : slotOf slot = some sl) (h : (s.hire sl).stage = .suspended) :
    resumeOwner slot s = done
      (s.enterStage sl (if (s.hire sl).pendingStop then (s.hire sl).stoppedAt s.clock else (s.hire sl).resumed)) [] := by
  unfold resumeOwner
  rw [withSlot_some hsl]
  exact checked_ok (by simp [firstRefusal, h])

/-- A hire resumed is in its resume stage (R14). -/
theorem resumed_eq {h : Hire} {st : Stage} (hst : h.resumeStage = some st) :
    h.resumed = { h with stage := st, suspendReason := none, resumeStage := none } := by
  simp [Hire.resumed, hst]

/-- STOP_HIRE of a running hire (R15). -/
theorem stopHireOwner_running {slot : Byte} {sl : SlotId} {s : State} (hsl : slotOf slot = some sl)
    (h : (s.hire sl).stage = .engaged ∨ (s.hire sl).stage = .metering) :
    stopHireOwner slot s = done (s.enterStage sl ((s.hire sl).stoppedAt s.clock)) [] := by
  unfold stopHireOwner
  rw [withSlot_some hsl]
  rcases h with h | h <;> simp only [h]

/-- STOP_HIRE of a SUSPENDED hire sets its pending stop (R15). -/
theorem stopHireOwner_suspended {slot : Byte} {sl : SlotId} {s : State} (hsl : slotOf slot = some sl)
    (h : (s.hire sl).stage = .suspended) : stopHireOwner slot s = done (s.putHire sl { s.hire sl with pendingStop := true }) [] := by
  unfold stopHireOwner
  rw [withSlot_some hsl]
  simp only [h]

/-- STOP_HIRE of a hire STOPPED and unclaimed, or FILING, is OK without effect (R16). -/
theorem stopHireOwner_over {slot : Byte} {sl : SlotId} {s : State} (hsl : slotOf slot = some sl)
    (h : (s.hire sl).stage = .stopped ∧ (s.hire sl).claim = none ∨ (s.hire sl).stage = .filing) : stopHireOwner slot s = done s [] := by
  unfold stopHireOwner
  rw [withSlot_some hsl]
  rcases h with ⟨h, hc⟩ | h <;> simp only [h]
  exact checked_ok (by simp [firstRefusal, hc])

/-- STOP_HIRE of a claimed hire is refused (R16). -/
theorem stopHireOwner_claimed {slot : Byte} {sl : SlotId} {s : State} (hsl : slotOf slot = some sl) (h : (s.hire sl).stage = .stopped)
    (hc : (s.hire sl).claim.isSome) : stopHireOwner slot s = (s, .refuse .claimed) := by
  unfold stopHireOwner
  rw [withSlot_some hsl]
  simp only [h]
  exact checked_no (by simp [firstRefusal, Option.isNone_eq_false_iff.2 hc])

/-- STOP_HIRE of a slot with no hire is refused (R15). -/
theorem stopHireOwner_badStage {slot : Byte} {sl : SlotId} {s : State} (hsl : slotOf slot = some sl)
    (h : (s.hire sl).stage = .free ∨ (s.hire sl).stage = .booked) : stopHireOwner slot s = (s, .refuse .badStage) := by
  unfold stopHireOwner
  rw [withSlot_some hsl]
  rcases h with h | h <;> simp only [h]

/-- Settles O19: each request by the stage it finds. -/
theorem suspendResumeAndStop : Obligations.SuspendResumeAndStop := by
  intro tag slot sl s ready hsl
  refine ⟨fun h => ⟨?_, ?_⟩, fun h => ⟨?_, ?_, ?_⟩, ?_, ?_, ?_, ?_⟩
  · exact request_done ready rfl (suspendOwner_done hsl h)
  · exact request_done ready rfl (stopHireOwner_running hsl h)
  · intro st hst hp
    have work := resumeOwner_done hsl h
    rw [if_neg (by simp [hp]), resumed_eq hst] at work
    exact request_done ready rfl work
  · intro hp
    have work := resumeOwner_done hsl h
    rw [if_pos hp] at work
    exact request_done ready rfl work
  · exact request_done ready rfl (stopHireOwner_suspended hsl h)
  · intro h hc
    exact request_done ready rfl (stopHireOwner_over hsl (.inl ⟨h, hc⟩))
  · intro h hc
    exact request_refused ready rfl (stopHireOwner_claimed hsl h hc)
  · intro h
    exact request_done ready rfl (stopHireOwner_over hsl (.inr h))
  · intro h
    exact request_refused ready rfl (stopHireOwner_badStage hsl h)

/-! ### Extras -/

/-- The count of a listed extra is raised in its place (R17). -/
theorem raiseExtra_listed {id n : Nat} {before rest : List (Nat × Nat)} (h : ∀ x ∈ before, x.1 ≠ id) :
    raiseExtra id (before ++ (id, n) :: rest) = before ++ (id, n + 1) :: rest := by
  induction before with
  | nil => simp [raiseExtra]
  | cons x xs ih =>
    obtain ⟨hx, hxs⟩ := List.forall_mem_cons.1 h
    simp [raiseExtra, hx, ih hxs]

/-- An extra not listed joins the end of the list (R17). -/
theorem raiseExtra_unlisted {id : Nat} {xs : List (Nat × Nat)} (h : ∀ x ∈ xs, x.1 ≠ id) : raiseExtra id xs = xs ++ [(id, 1)] := by
  induction xs with
  | nil => rfl
  | cons x xs ih =>
    obtain ⟨hx, hxs⟩ := List.forall_mem_cons.1 h
    simp [raiseExtra, hx, ih hxs]

/-- The count of a listed extra is lowered in its place, and its pair leaves the list at 0 (R18). -/
theorem lowerExtra_listed {id n : Nat} {before rest : List (Nat × Nat)} (h : ∀ x ∈ before, x.1 ≠ id) :
    lowerExtra id (before ++ (id, n) :: rest) = before ++ (if n ≤ 1 then rest else (id, n - 1) :: rest) := by
  induction before with
  | nil => simp [lowerExtra]
  | cons x xs ih =>
    obtain ⟨hx, hxs⟩ := List.forall_mem_cons.1 h
    simp [lowerExtra, hx, ih hxs]

/-- ADD_EXTRA with every check of R17 passing. -/
theorem addExtraOwner_done {slot extra : Byte} {sl : SlotId} {e : ExtraEntry} {s : State} (hsl : slotOf slot = some sl)
    (hstage : (s.hire sl).extrasOpen = true) (hc : (s.hire sl).claim = none) (he : s.tariffs.active.extra extra.toNat = some e)
    (hstop : (s.hire sl).stage = .stopped → e.afterStop = true)
    (hcount : extraCount (s.hire sl).extras extra.toNat + 1 ≤ e.maxCount)
    (hcap : (s.hire sl).metered + (s.hire sl).extrasAmount + e.amount ≤ 999999) :
    addExtraOwner slot extra s = done ((s.putHire sl { s.hire sl with
      extras := raiseExtra extra.toNat (s.hire sl).extras, extrasAmount := (s.hire sl).extrasAmount + e.amount }).settleAndFile sl) [] := by
  unfold addExtraOwner
  rw [withSlot_some hsl]
  dsimp only
  rw [checked_ok (by simp [firstRefusal, hstage, hc]), he]
  apply checked_ok
  simpa [fr_cons, firstRefusal, hcount, Config.fareCap, hcap, or_iff_not_imp_left] using hstop

/-- REMOVE_EXTRA with every check of R18 passing. -/
theorem removeExtraOwner_done {slot extra : Byte} {sl : SlotId} {s : State} (hsl : slotOf slot = some sl)
    (hstage : (s.hire sl).extrasOpen = true) (hc : (s.hire sl).claim = none) (hp : (s.hire sl).payments = [])
    (hlisted : ∃ x ∈ (s.hire sl).extras, x.1 = extra.toNat) :
    removeExtraOwner slot extra s = done (({ s with draws := s.drawsAfterRemoval extra.toNat }.putHire sl { s.hire sl with
      extras := lowerExtra extra.toNat (s.hire sl).extras
      extrasAmount := (s.hire sl).extrasAmount - s.removedAmount extra.toNat }).settleAndFile sl) [] := by
  unfold removeExtraOwner
  rw [withSlot_some hsl]
  apply checked_ok
  simpa [fr_cons, firstRefusal, hstage, hc, hp] using hlisted

/-- Settles O20: the lists by induction on what stands before the extra. -/
theorem extrasAreAddedAndRemoved : Obligations.ExtrasAreAddedAndRemoved := by
  rintro tag slot extra sl _ _ s ready hsl rfl rfl hstage hc
  have hopen := (extrasOpen_iff _).2 hstage
  refine ⟨fun e he hstop hcount hcap => ?_, fun before n rest list hp hlist hbefore hl => ?_⟩
  · refine ⟨raiseExtra extra.toNat (s.hire sl).extras,
      request_done ready rfl (addExtraOwner_done hsl hopen hc he hstop hcount hcap), ?_, raiseExtra_unlisted⟩
    intro before n rest hlist hbefore
    rw [hlist, raiseExtra_listed hbefore]
  · have work := removeExtraOwner_done hsl hopen hc hp ⟨(extra.toNat, n), by simp [hlist], rfl⟩
    rw [hlist, lowerExtra_listed hbefore, ← hl] at work
    refine ⟨fun e he => ?_, fun he => ⟨(Config.amountOfEmptyPlace s.draws).toNat, ?_⟩⟩
    · simp only [State.drawsAfterRemoval, State.removedAmount, he, Option.isSome_some, if_true] at work
      exact request_done ready rfl work
    · simp only [State.drawsAfterRemoval, State.removedAmount, he, Option.isSome_none, Bool.false_eq_true, if_false] at work
      exact request_done ready rfl work

end Sys2Proof.Machine
end

section
/-! The close of the shift (R9, R100, R102). -/

namespace Sys2Proof.Machine

/-! ### Emptying the bookings -/

theorem hire_emptyBooked_same (s : State) (sl : SlotId) :
    (s.emptyBooked sl).hire sl = if (s.hire sl).stage = .booked then Hire.cleared else s.hire sl := by
  unfold State.emptyBooked
  split
  · exact hire_enterStage_same _ _ _
  · rfl

theorem hire_emptyBooked_other (s : State) {sl x : SlotId} (h : x ≠ sl) : (s.emptyBooked sl).hire x = s.hire x := by
  unfold State.emptyBooked
  split
  · exact hire_enterStage_other _ _ h
  · rfl

/-- Each slot is emptied on its own account (R9). -/
theorem hire_emptyBooked_all (s : State) (sl : SlotId) :
    (((s.emptyBooked .a).emptyBooked .b).emptyBooked .c).hire sl
      = if (s.hire sl).stage = .booked then Hire.cleared else s.hire sl := by
  cases sl
  · rw [hire_emptyBooked_other _ (by simp), hire_emptyBooked_other _ (by simp), hire_emptyBooked_same]
  · rw [hire_emptyBooked_other _ (by simp), hire_emptyBooked_same, hire_emptyBooked_other _ (by simp)]
  · rw [hire_emptyBooked_same, hire_emptyBooked_other _ (by simp), hire_emptyBooked_other _ (by simp)]

/-! ### The close -/

theorem hire_rederive (s : State) (sl : SlotId) : s.rederive.hire sl = s.hire sl := by
  rw [rederive_only]
  rfl

/-- The close up to its summary: the shift CLOSING, each BOOKED slot FREE, the journal as it was (R9, R100). -/
theorem closeShift_parts (s : State) : ∃ z : State, s.closeShift = z.beginSummary.fileOn
    ∧ (∀ sl, z.hire sl = if (s.hire sl).stage = .booked then Hire.cleared else s.hire sl)
    ∧ z.shift = { s.shift with state := .closing, closeTime := some s.clock } ∧ z.journal = s.journal ∧ z.clock = s.clock := by
  obtain ⟨x, hx⟩ : ∃ x : State, x = { s with shift := { s.shift with state := .closing, closeTime := some s.clock } } := ⟨_, rfl⟩
  obtain ⟨z, hz⟩ : ∃ z : State, z = (((x.emptyBooked .a).emptyBooked .b).emptyBooked .c).rederive := ⟨_, rfl⟩
  have reach : z.beyondStage = x.beyondStage := by
    rw [hz]
    simp
  obtain ⟨zshift, zjournal⟩ := kept_of_beyondStage reach
  refine ⟨z, ?_, fun sl => ?_, ?_, ?_, ?_⟩
  · rw [hz, hx]
    rfl
  · rw [hz, hire_rederive, hire_emptyBooked_all, hx]
    rfl
  · rw [zshift, hx]
  · rw [zjournal, hx]
  · exact (congrArg State.clock reach).trans (by rw [hx]; rfl)

/-- A slot FREE or BOOKED is FREE once its booking is emptied, and no other slot is. -/
theorem emptied_free_iff (h : Hire) :
    (if h.stage = .booked then Hire.cleared else h).stage = .free ↔ h.stage = .free ∨ h.stage = .booked := by
  split
  · rename_i booked
    simp [booked, Hire.cleared]
  · rename_i other
    simp [other]

/-- The close of an OPEN shift whose filing can go on: the summary of an empty cab is handed over at once, and any other waits (R100, R102). -/
theorem closeShift_drains (s : State) (steady : s.journal.steady) : ∃ t : State, t = s.closeShift
    ∧ (∀ sl, t.hire sl = if (s.hire sl).stage = .booked then Hire.cleared else s.hire sl)
    ∧ t.shift = { s.shift with state := .closing, closeTime := some s.clock, summary := t.shift.summary }
    ∧ ((∀ sl, (s.hire sl).stage = .free ∨ (s.hire sl).stage = .booked) → s.shift.summary = false →
        t.shift.summary = true
          ∧ t.journal.queue = s.journal.queue ++ [⟨s.shift.number, s.clock, .shift (s.shift.driver.getD 0)
              (s.shift.openTime.getD s.clock) s.clock s.shift.counters⟩]
          ∧ (s.journal.inFlight = none → t.journal.inFlight = some ⟨s.journal.nextSeq, s.journal.writer⟩))
    ∧ ((∃ sl, (s.hire sl).stage ≠ .free ∧ (s.hire sl).stage ≠ .booked) →
        t.shift.summary = s.shift.summary ∧ t.journal.queue = s.journal.queue) := by
  obtain ⟨z, hz, zhire, zshift, zjournal, zclock⟩ := closeShift_parts s
  have free_iff : z.hires.allFree = true ↔ ∀ sl, (s.hire sl).stage = .free ∨ (s.hire sl).stage = .booked := by
    rw [allFree_iff]
    exact forall_congr' fun sl => by rw [← emptied_free_iff, ← zhire sl]; rfl
  obtain ⟨y, hy⟩ : ∃ y : State, y = z.beginSummary := ⟨_, rfl⟩
  have yhires : y.hires = z.hires := by rw [hy, beginSummary_hires]
  have ykept : JSame s.journal y.journal := by
    rw [hy, ← zjournal]
    exact (mild_beginSummary z).j
  obtain ⟨b, yshift⟩ := beginSummary_shift z
  rw [← hy] at yshift
  obtain ⟨x, filed, -, -, begins⟩ := fileOn_steady y (ykept.steady.2 steady)
  rw [hz, ← hy, filed]
  refine ⟨_, rfl, fun sl => ?_, ?_, fun none summary => ?_, fun ⟨sl, notFree, notBooked⟩ => ?_⟩
  · rw [← zhire sl]
    exact congrArg (fun t => t.get sl) yhires
  · rw [yshift, zshift]
  · obtain ⟨begun, queued⟩ := beginSummary_begins (s := z) ⟨by rw [zshift], by rw [zshift]; exact summary, free_iff.2 none⟩
    rw [← hy] at begun queued
    refine ⟨by rw [begun], ?_, fun idle => ?_⟩
    · refine queued.trans ?_
      unfold State.shiftBody
      rw [zshift, zjournal, zclock]
      rfl
    · have yjournal : y.journal.inFlight = s.journal.inFlight ∧ y.journal.nextSeq = s.journal.nextSeq
          ∧ y.journal.writer = s.journal.writer := by
        rw [ykept]
        exact ⟨rfl, rfl, rfl⟩
      obtain ⟨yflight, yseq, ywriter⟩ := yjournal
      rw [← yseq, ← ywriter]
      exact begins (yflight.trans idle) (by rw [queued]; simp)
  · have waits : y = z := by
      rw [hy]
      exact beginSummary_waits fun h => (free_iff.1 h.2.2 sl).elim notFree notBooked
    rw [waits, zshift, zjournal]
    exact ⟨rfl, rfl⟩

/-- Settles O15: CLOSE_SHIFT is `closeShift` on an OPEN shift, and nothing on any other. -/
theorem closeShiftBeginsTheDrain : Obligations.CloseShiftBeginsTheDrain := by
  intro p tag s ready offered
  refine ⟨fun opened steady => ?_, fun notOpened => ?_⟩
  · obtain ⟨t, ht, thire, tshift, drained, waits⟩ := closeShift_drains s steady
    have work : closeShiftOwner s = done t [] := by
      unfold closeShiftOwner
      rw [if_pos opened, ht]
    exact ⟨_, request_done ready offered work, congrArg ShiftAccounting.state tshift, congrArg ShiftAccounting.closeTime tshift, thire,
      (congrArg ShiftAccounting.counters tshift :), drained, waits, congrArg Port.reply (port_putPort_same t p _)⟩
  · have work : closeShiftOwner s = done s [] := by
      unfold closeShiftOwner
      rw [if_neg notOpened]
    exact request_done ready offered work

end Sys2Proof.Machine
end

section
/-! What expires at a fare tick: payment entries, claims and bookings, each seen from its slot (R8, R78, R85). -/

namespace Sys2Proof.Machine

/-! ### Payment entries -/

/-- A claimed hire is never filed by the settlement check (R19). -/
theorem settled_claimed {h : Hire} {c : Claim} (hc : h.claim = some c) : h.settled = false :=
  unsettled_of (.inr (.inl (by simp [hc])))

/-- The hire with every entry that has come due EXPIRED (R85). -/
def Hire.dueExpired (n : Nat) (h : Hire) : Hire := { h with payments := h.payments.map (Payment.expireAt n) }

/-- With no entry due nothing changes. -/
theorem dueExpired_none {n : Nat} {h : Hire} (noneDue : h.payments.any (Payment.dueAt n) = false) : h.dueExpired n = h := by
  have same : ∀ e ∈ h.payments, e.expireAt n = e := by
    intro e he
    unfold Payment.expireAt
    rw [if_neg (List.any_eq_false.1 noneDue e he)]
  unfold Hire.dueExpired
  rw [List.map_congr_left same, List.map_id']

/-- The expiry of a STOPPED, claimed hire's entries that have come due (R85). -/
theorem expirePayments_due {s : State} {sl : SlotId} {c : Claim} (hstop : (s.hire sl).stage = .stopped) (hc : (s.hire sl).claim = some c)
    (due : (s.hire sl).payments.any (Payment.dueAt s.timeBase) = true) : s.expirePayments sl
      = ((s.putHire sl ((s.hire sl).dueExpired s.timeBase)).notify c.port .paymentExpired).settle sl := by
  unfold State.expirePayments
  dsimp only
  rw [if_pos (by simp [hstop, due])]
  split
  · rename_i c' hc'
    obtain rfl := Option.some.inj (hc.symm.trans hc')
    rfl
  · rename_i unclaimed
    exact absurd (hc.symm.trans unclaimed) (by simp)

/-- The entries of a STOPPED, claimed hire that have come due are EXPIRED, and the hire stays (R85). -/
theorem expirePayments_claimed {s : State} {sl : SlotId} {c : Claim} (hstop : (s.hire sl).stage = .stopped)
    (hc : (s.hire sl).claim = some c) : (s.expirePayments sl).hire sl = (s.hire sl).dueExpired s.timeBase := by
  cases due : (s.hire sl).payments.any (Payment.dueAt s.timeBase) with
  | true =>
    have unsettled : ((s.hire sl).dueExpired s.timeBase).settled = false := settled_claimed hc
    rw [expirePayments_due hstop hc due, hires_settle_same, hire_notify, hire_putHire_same, if_neg (by simp [unsettled])]
  | false =>
    rw [dueExpired_none due]
    unfold State.expirePayments
    dsimp only
    rw [if_neg (by simp [due])]

/-- The claimant is told of an entry that has come due (R85). -/
theorem expirePayments_told {s : State} {sl : SlotId} {c : Claim} {e : Payment} (hstop : (s.hire sl).stage = .stopped)
    (hc : (s.hire sl).claim = some c) (he : e ∈ (s.hire sl).payments) (due : e.dueAt s.timeBase = true) :
    ((s.expirePayments sl).port c.port).holds .paymentExpired = true := by
  rw [expirePayments_due hstop hc (List.any_eq_true.2 ⟨e, he, due⟩)]
  refine (mild_settle _ sl).p c.port _ ?_
  rw [notify_ports, ports_get_put_same]
  exact add_self _ _

theorem expirePayments_timeBase (s : State) (sl : SlotId) : (s.expirePayments sl).timeBase = s.timeBase := by
  obtain ⟨-, -, -, count, -⟩ := kept_of_beyondFiling (expirePayments_beyondFiling s sl)
  exact count

/-! ### Claims -/

/-- A claim whose expiry count is not reached stands (R78). -/
theorem expireClaim_stands {s : State} {sl : SlotId} {c : Claim} (hc : (s.hire sl).claim = some c) (h : s.timeBase < c.expiry) :
    s.expireClaim sl = s := by
  unfold State.expireClaim
  dsimp only
  rw [hc]
  exact if_neg (Nat.not_le.2 h)

/-- A claim that expires is a release with its settlement check, both ports told (R78). -/
theorem expireClaim_lapses {s : State} {sl : SlotId} {c : Claim} (hc : (s.hire sl).claim = some c) (h : c.expiry ≤ s.timeBase) :
    (s.expireClaim sl).hire sl = (if (s.hire sl).released.settled then (s.hire sl).released.filed .paid else (s.hire sl).released)
      ∧ ((s.expireClaim sl).port c.port).holds .claimExpired = true
      ∧ ((s.expireClaim sl).port .console).holds .claimExpired = true := by
  obtain ⟨y, hy⟩ : ∃ y : State, y = ((s.putHire sl (s.hire sl).released).notify c.port .claimExpired).notify .console .claimExpired :=
    ⟨_, rfl⟩
  have e : s.expireClaim sl = y.settle sl := by
    unfold State.expireClaim
    dsimp only
    rw [hc]
    dsimp only
    rw [if_pos h, hy]
  have yhire : y.hire sl = (s.hire sl).released := by
    rw [hy, hire_notify, hire_notify, hire_putHire_same]
  have settleKeeps := (mild_settle y sl).p
  rw [e, hires_settle_same, yhire]
  refine ⟨rfl, settleKeeps _ _ ?_, settleKeeps _ _ ?_⟩
  · rw [hy]
    refine PLe_add _ _ _ _ _ ?_
    rw [notify_ports, ports_get_put_same]
    exact add_self _ _
  · rw [hy, notify_ports, ports_get_put_same]
    exact add_self _ _

/-- An entry that lapses at a release does so whether or not it has come due before (R77, R85). -/
theorem lapse_expireAt (n : Nat) (e : Payment) : (e.expireAt n).lapse = e.lapse := by
  unfold Payment.expireAt
  split
  · rename_i due
    have pending : e.isPending = true := (Bool.and_eq_true_iff.1 due).1
    unfold Payment.lapse
    rw [if_pos pending]
    rfl
  · rfl

theorem released_dueExpired (n : Nat) (h : Hire) : (h.dueExpired n).released = h.released := by
  unfold Hire.released Hire.dueExpired
  simp [lapse_expireAt]

/-! ### Bookings -/

theorem notifyConsoleFleet_holds (s : State) (k : NoticeKind) :
    ((s.notifyConsoleFleet k).port .console).holds k = true ∧ ((s.notifyConsoleFleet k).port .fleet).holds k = true :=
  ⟨add_self _ k, add_self _ k⟩

theorem hire_notifyConsoleFleet (s : State) (k : NoticeKind) (sl : SlotId) : (s.notifyConsoleFleet k).hire sl = s.hire sl := rfl

/-- A booking whose deadline is reached frees its slot, both ports told (R8). -/
theorem expireBooking_lapses {s : State} {sl : SlotId} (h : s.bookingLapses sl = true) :
    (s.expireBooking sl).hire sl = Hire.cleared ∧ ((s.expireBooking sl).port .console).holds .bookingExpired = true
      ∧ ((s.expireBooking sl).port .fleet).holds .bookingExpired = true := by
  have e : s.expireBooking sl = (s.enterStage sl Hire.cleared).notifyConsoleFleet .bookingExpired := by
    unfold State.expireBooking
    rw [if_pos h]
  rw [e]
  refine ⟨?_, notifyConsoleFleet_holds _ _⟩
  rw [hire_notifyConsoleFleet, hire_enterStage_same]

/-- A slot that is FREE has nothing to expire. -/
theorem expireSlot_cleared {s : State} {sl : SlotId} (h : s.hire sl = Hire.cleared) : s.expireSlot sl = s := by
  have e : s.expirePayments sl = s := by
    unfold State.expirePayments
    dsimp only
    rw [h]
    rfl
  unfold State.expireSlot State.expireClaim
  rw [e, h]
  rfl

/-! ### The fare tick of one slot -/

/-- A fare tick seen from one slot with no running hire: its booking is looked at, then its settlement, at the count and the clock of the
tick; what a port comes to hold on the way it still holds at the end (R186). -/
theorem fareTick_at {l : Lines} {s : State} (sl : SlotId) (fare : s.fareNext = true) (idle : s.partClear = .idle) (steady : s.journal.steady)
    (still : (s.hire sl).running = false) :
    ∃ u w : State, u.hire sl = s.hire sl ∧ u.clock = s.clock ∧ w.hire sl = (u.expireBooking sl).hire sl ∧ w.timeBase = s.nextCount
      ∧ PLe (u.expireBooking sl).ports w.ports ∧ PLe (w.expireSlot sl).ports (s.tick l).ports
      ∧ (s.tick l).hire sl = (w.expireSlot sl).hire sl := by
  have pre := pre_e l s
  have presteady : (preTick l s).journal.steady := by
    rw [pre]
    exact steady
  obtain ⟨u, v, w, x, preToU, uhire, rfl, vToW, whire, rfl, xle, thire⟩ := fareWork_at presteady sl
  have preFields : (preTick l s).hire sl = s.hire sl ∧ (preTick l s).clock = s.clock ∧ (preTick l s).timeBase = s.nextCount := by
    rw [pre]
    exact ⟨rfl, rfl, rfl⟩
  obtain ⟨preHire, preClock, preCount⟩ := preFields
  obtain ⟨-, -, -, -, uclock, -⟩ := kept_of_beyondFiling preToU.b
  obtain ⟨-, -, -, wcount, -⟩ := kept_of_beyondFiling ((preToU.trans (mild_expireBooking u sl)).trans vToW).b
  rw [fareWork_tick fare idle]
  refine ⟨u, w, ?_, uclock.trans preClock, whire, wcount.trans preCount, vToW.p, xle, thire⟩
  rw [uhire, preHire, fareTick_not_running _ _ _ still]

/-- The same for a STOPPED hire, whose slot has no booking to look at. -/
theorem fareTick_stopped {l : Lines} {s : State} {sl : SlotId} (fare : s.fareNext = true) (idle : s.partClear = .idle)
    (steady : s.journal.steady) (hstop : (s.hire sl).stage = .stopped) :
    ∃ w : State, w.hire sl = s.hire sl ∧ w.timeBase = s.nextCount ∧ PLe (w.expireSlot sl).ports (s.tick l).ports
      ∧ (s.tick l).hire sl = (w.expireSlot sl).hire sl := by
  obtain ⟨u, w, uhire, -, whire, wcount, -, xle, thire⟩ :=
    fareTick_at (l := l) sl fare idle steady (by simp [Hire.running, hstop])
  refine ⟨w, ?_, wcount, xle, thire⟩
  rw [whire, hire_expireBooking_not _ (by simp [uhire, hstop]), uhire]

/-- Settles O25: the fare tick seen from the slot, then the one expiry that falls in it. -/
theorem timersExpireAtTheFareTick : Obligations.TimersExpireAtTheFareTick := by
  intro sl l s running fare idle steady
  refine ⟨fun c entry e hstop hc unexpired index he due => ?_, fun c hstop hc expired => ?_, fun b hbooked hb reached => ?_⟩
  · have falls : s.paymentFalls sl entry = true := by
      have found : (s.hire sl).entry entry = some e := by
        unfold Hire.entry
        rw [if_neg (by omega), he]
      simp [State.paymentFalls, fare, hstop, found, due]
    obtain ⟨w, whire, wcount, xle, thire⟩ := fareTick_stopped (l := l) fare idle steady hstop
    have hstop' : (w.hire sl).stage = .stopped := by rw [whire]; exact hstop
    have hc' : (w.hire sl).claim = some c := by rw [whire]; exact hc
    have expires := expirePayments_claimed hstop' hc'
    have stands : w.expireSlot sl = w.expirePayments sl :=
      expireClaim_stands (by rw [expires]; exact hc') (by rw [expirePayments_timeBase, wcount]; exact unexpired)
    refine ⟨_, congrArg Host.Outcome.next (mk_tickWith running falls), ?_, xle _ _ ?_⟩
    · rw [thire, stands, expires, whire, wcount]
      rfl
    · rw [stands]
      exact expirePayments_told hstop' hc' (by rw [whire]; exact List.mem_of_getElem? he) (by rw [wcount]; exact due)
  · have falls : (s.fareNext && (s.hire sl).claimLapses s.nextCount) = true := by
      simp [fare, Hire.claimLapses, hc, expired]
    obtain ⟨w, whire, wcount, xle, thire⟩ := fareTick_stopped (l := l) fare idle steady hstop
    have expires := expirePayments_claimed (s := w) (by rw [whire]; exact hstop) (by rw [whire]; exact hc)
    obtain ⟨lapsed, told, console⟩ := expireClaim_lapses (s := w.expirePayments sl) (c := c)
      (by rw [expires, whire]; exact hc) (by rw [expirePayments_timeBase, wcount]; exact expired)
    rw [expires, released_dueExpired, whire] at lapsed
    exact ⟨_, congrArg Host.Outcome.next (mk_tickWith running falls), thire.trans lapsed, xle _ _ told, xle _ _ console⟩
  · have falls : (s.fareNext && s.bookingLapses sl) = true := by
      simp [fare, State.bookingLapses, hbooked, hb, reached]
    obtain ⟨u, w, uhire, uclock, whire, wcount, wle, xle, thire⟩ :=
      fareTick_at (l := l) sl fare idle steady (by simp [Hire.running, hbooked])
    obtain ⟨freed, console, fleet⟩ := expireBooking_lapses (s := u) (sl := sl)
      (by simp [State.bookingLapses, uhire, uclock, hbooked, hb, reached])
    rw [expireSlot_cleared (whire.trans freed)] at xle thire
    exact ⟨_, congrArg Host.Outcome.next (mk_tickWith running falls), thire.trans (whire.trans freed), xle _ _ (wle _ _ console),
      xle _ _ (wle _ _ fleet)⟩

end Sys2Proof.Machine
end

section
/-! A start-up that takes the retained state up: the state its restoration starts from, the hires restored, the filing that goes on or
finds no slot, and the working memory (R25, R26, R52, R111, R124, R131, R173, R191). -/

namespace Sys2Proof.Machine

/-! ### One hire restored -/

/-- The settlement check of one hire, as a change of its record (R19). -/
def Hire.checked (h : Hire) : Hire := if h.settled then h.filed .paid else h

/-- A hire that was running is SUSPENDED by the loss of power (R25). -/
theorem restored_running {h : Hire} {st : Stage} (hst : h.stage = st) (run : st = .engaged ∨ st = .metering) :
    h.restored = { h with stage := .suspended, suspendReason := some .power, resumeStage := some st } := by
  unfold Hire.restored
  rcases run with rfl | rfl <;> rw [hst]

/-- A STOPPED hire loses its claim and its PENDING entries (R26). -/
theorem restored_stopped {h : Hire} (hst : h.stage = .stopped) : h.restored = h.released := by
  unfold Hire.restored
  rw [hst]

/-- The other hires stand. -/
theorem restored_still {h : Hire} (hrun : h.running = false) (hst : h.stage ≠ .stopped) : h.restored = h := by
  unfold Hire.restored
  split
  · rename_i e
    simp [Hire.running, e] at hrun
  · rename_i e
    simp [Hire.running, e] at hrun
  · rename_i e
    exact absurd e hst
  · rfl

/-- What is restored of any hire, beside its stage, its payments and its claim: the figures a start-up leaves (R25, R26). -/
theorem restored_cases (h : Hire) :
    h.restored = { h with stage := .suspended, suspendReason := some .power, resumeStage := some h.stage } ∧ h.stage ≠ .free
        ∧ h.stage ≠ .stopped
      ∨ h.restored = h.released ∧ h.stage = .stopped ∨ h.restored = h ∧ h.stage ≠ .stopped := by
  by_cases hstop : h.stage = .stopped
  · exact .inr (.inl ⟨restored_stopped hstop, hstop⟩)
  · cases hrun : h.running with
    | false => exact .inr (.inr ⟨restored_still hrun hstop, hstop⟩)
    | true =>
      refine .inl ⟨restored_running rfl ((running_iff h).1 hrun), fun free => ?_, hstop⟩
      simp [Hire.running, free] at hrun

/-- A hire that is not STOPPED does not meet the conditions of R19. -/
theorem settled_notStopped {h : Hire} (hst : h.stage ≠ .stopped) : h.settled = false := unsettled_of (.inl hst)

/-- The settlement check after a restoration is that of the hire released (R26). -/
theorem restored_settled (h : Hire) : h.restored.settled = h.released.settled := by
  rcases restored_cases h with ⟨e, -, hst⟩ | ⟨e, -⟩ | ⟨e, hst⟩ <;> rw [e]
  · rw [settled_notStopped (h := h.released) hst]
    exact settled_notStopped (by simp)
  · rw [settled_notStopped hst, settled_notStopped (h := h.released) hst]

theorem restored_of_settled {h : Hire} (hset : h.released.settled = true) : h.restored = h.released :=
  restored_stopped ((settled_iff _).1 hset).1

theorem restored_free_iff (h : Hire) : h.restored.stage = .free ↔ h.stage = .free := by
  rcases restored_cases h with ⟨e, hfree, -⟩ | ⟨e, -⟩ | ⟨e, -⟩ <;> rw [e]
  · simp [hfree]
  · rfl

/-- Restoration and settlement leave a hire's distance and its metering as they were. -/
theorem checked_restored_figures (h : Hire) :
    h.restored.checked.metreRem = h.metreRem ∧ h.restored.checked.metres = h.metres ∧ h.restored.checked.unmetered = h.unmetered := by
  have atCheck : ∀ g : Hire, g.checked.metreRem = g.metreRem ∧ g.checked.metres = g.metres ∧ g.checked.unmetered = g.unmetered := by
    intro g
    unfold Hire.checked
    split <;> exact ⟨rfl, rfl, rfl⟩
  obtain ⟨rem, metres, unmetered⟩ := atCheck h.restored
  rw [rem, metres, unmetered]
  rcases restored_cases h with ⟨e, -⟩ | ⟨e, -⟩ | ⟨e, -⟩ <;> rw [e] <;> exact ⟨rfl, rfl, rfl⟩

/-! ### The hires restored -/

theorem hires_get_map (t : HireTable) (f : Hire → Hire) (sl : SlotId) : (t.map f).get sl = f (t.get sl) := by
  cases sl <;> rfl

/-- The settlement checks of the three slots, each on its own hire (R26). -/
theorem hire_settle_all (w : State) (sl : SlotId) : (((w.settle .a).settle .b).settle .c).hire sl = (w.hire sl).checked := by
  unfold Hire.checked
  cases sl
  · rw [hires_settle_other _ (by simp), hires_settle_other _ (by simp), hires_settle_same]
  · rw [hires_settle_other _ (by simp), hires_settle_same, hires_settle_other _ (by simp)]
  · rw [hires_settle_same, hires_settle_other _ (by simp), hires_settle_other _ (by simp)]

theorem settle_shift (s : State) (sl : SlotId) : (s.settle sl).shift = s.shift := by
  unfold State.settle State.enterFiling
  split
  · dsimp only
    rw [(kept_of_beyondStage (enterStage_beyondStage _ _ _)).1, handOver_hire, updateLow_shift]
    rfl
  · rfl

/-- The state whose hires the settlement checks of a start-up look at: every hire restored, a power interruption counted (R25, R26). -/
theorem restoreHires_parts (y : State) : ∃ w : State, y.restoreHires = ((w.settle .a).settle .b).settle .c
    ∧ (∀ sl, w.hire sl = (y.hire sl).restored)
    ∧ w.shift = (if y.hires.running = 0 then y.shift else y.shift.count .powerInterruptions 1)
    ∧ w = { y with hires := y.hires.map Hire.restored, shift := w.shift } := by
  unfold State.restoreHires
  split
  · exact ⟨_, rfl, fun sl => hires_get_map _ _ sl, rfl, rfl⟩
  · exact ⟨_, rfl, fun sl => hires_get_map _ _ sl, rfl, rfl⟩

/-- What a restoration leaves: each hire restored and checked, one interruption counted, and the journal's queue and low mark the only
things moved beside ports and sign (R25, R26). -/
theorem restoreHires_out (y : State) : ∃ r : State, r = y.restoreHires ∧ (∀ sl, r.hire sl = (y.hire sl).restored.checked)
    ∧ r.shift = (if y.hires.running = 0 then y.shift else y.shift.count .powerInterruptions 1)
    ∧ JSame y.journal r.journal ∧ r.beyondFiling = y.beyondFiling
    ∧ ((∀ sl, (y.hire sl).released.settled = false) → r.journal = y.journal) := by
  obtain ⟨w, hr, whire, wshift, hw⟩ := restoreHires_parts y
  have wjournal : w.journal = y.journal := by rw [hw]
  have wbeyond : w.beyondFiling = y.beyondFiling := by rw [hw]; rfl
  have mild := ((mild_settle w .a).trans (mild_settle _ .b)).trans (mild_settle _ .c)
  refine ⟨_, rfl, fun sl => ?_, ?_, ?_, ?_, fun unsettled => ?_⟩ <;> rw [hr]
  · rw [hire_settle_all, whire]
  · rw [settle_shift, settle_shift, settle_shift, wshift]
  · rw [← wjournal]
    exact mild.j
  · exact mild.b.trans wbeyond
  · have still : ∀ sl, w.settle sl = w := fun sl => settle_unsettled (by rw [whire, restored_settled]; exact unsettled sl)
    rw [still, still, still, wjournal]

/-! ### Filing that goes on -/

/-- A filing that can go on, or has nothing to file, moves the record in flight alone (R121). -/
theorem fileOn_goesOn {z : State} (h : z.journal.steady ∨ z.journal.queue = []) :
    ∃ f, z.fileOn = { z with journal := { z.journal with inFlight := f } } ∧ (z.journal.inFlight.isSome → f = z.journal.inFlight) := by
  rcases h with steady | nothing
  · obtain ⟨f, e, kept, -⟩ := fileOn_steady z steady
    exact ⟨f, e, kept⟩
  · exact ⟨z.journal.inFlight, beginFiling_nothing _ z nothing, fun _ => rfl⟩

/-! ### Working memory -/

theorem alarmLevel_kept (x : Sign) (n : Nat) :
    (x.alarmLevel n).override = x.override ∧ (x.alarmLevel n).night = x.night ∧ (x.alarmLevel n).test = x.test := by
  unfold Sign.alarmLevel
  split <;> exact ⟨rfl, rfl, rfl⟩

theorem aim_kept (x : Sign) (t : Target) (full : Nat) :
    (x.aim t full).override = x.override ∧ (x.aim t full).night = x.night ∧ (x.aim t full).test = x.test := by
  unfold Sign.aim
  split <;> exact ⟨rfl, rfl, rfl⟩

/-- A derivation on the sign keeps the override, the ambient value and the test (R132). -/
theorem signDerived_kept (s : State) : s.signDerived = { s with sign := s.signDerived.sign }
    ∧ s.signDerived.sign.override = s.sign.override ∧ s.signDerived.sign.night = s.sign.night
    ∧ s.signDerived.sign.test = s.sign.test := by
  obtain ⟨aimOv, aimNight, aimTest⟩ := aim_kept s.sign s.derivedTarget s.fullLevel
  unfold State.signDerived
  dsimp only
  refine ⟨rfl, ?_⟩
  split
  · obtain ⟨ov, night, test⟩ := alarmLevel_kept { s.sign.aim s.derivedTarget s.fullLevel with flash := some ⟨true, 50⟩ } s.fullLevel
    exact ⟨ov.trans aimOv, night.trans aimNight, test.trans aimTest⟩
  · exact ⟨aimOv, aimNight, aimTest⟩

/-- The working memory of a start-up: what it sets, and nothing else (R191). -/
theorem workingMemory_out (v : State) : ∃ x : Sign, v.workingMemory = { v with
      alarm := v.alarm.powerOn
      ports := Ports.powerOn (v.alarm.state == AlarmState.active)
      indicators := 0
      intercom := Intercom.powerOn v.pins v.tariffs.config.depth .off
      closedMark := false
      checkWord := false
      power := .running
      sign := x }
    ∧ x.override = v.sign.override ∧ x.night = v.pins.night ∧ x.test = none := by
  unfold State.workingMemory State.signPowerOn
  obtain ⟨e, ov, night, test⟩ := signDerived_kept { v with
      alarm := v.alarm.powerOn
      ports := Ports.powerOn (v.alarm.state == AlarmState.active)
      indicators := 0
      intercom := Intercom.powerOn v.pins v.tariffs.config.depth .off
      closedMark := false
      checkWord := false
      power := .running
      sign := Sign.powerOn v.sign.override v.pins.night }
  exact ⟨_, e, ov, night, test⟩

/-- The override outlasts the work of hires and filings (R104). -/
theorem filed_override (ov : Override) : Filed (fun s => s.sign.override = ov) where
  hires _ _ h := h
  ports _ _ h := h
  shift _ _ _ _ h := h
  journal _ _ _ h := h
  derive s h := by
    rcases rederive_cases s with e | e <;> rw [e]
    · exact h
    · exact (aim_kept _ _ _).1.trans h

theorem restoreHires_override (y : State) : y.restoreHires.sign.override = y.sign.override := by
  obtain ⟨w, hr, -, -, hw⟩ := restoreHires_parts y
  have c := filed_override y.sign.override
  rw [hr]
  exact c.settle _ (c.settle _ (c.settle _ (by rw [hw])))

end Sys2Proof.Machine
end

section
/-! The start-up with the retention memory intact, put together (R191), and its statement. -/

namespace Sys2Proof.Machine

/-! ### The state a restoration starts from -/

/-- The sections loaded, the low mark under their level, the slots as an interrupted recovery left them, Part clear ended: what the
restoration starts from when both sections are sound (R125, R131, R191). -/
def State.atRestoration (s : State) (u : StartUp) (store : JournalStore) (q : Ports) : State :=
  { s with
    pins := u.lines
    tariffs := s.tariffs.loaded u
    shift := s.shift.storeLoaded u
    journal := { s.journal with
      store := store
      low := if (s.tariffs.loaded u).config.lowWater = s.tariffs.config.lowWater then s.journal.low
        else decide (s.journal.free < (s.tariffs.loaded u).config.lowWater) }
    ports := q
    partClear := .idle }

/-- The hires aboard when the tariff section is bad (R52). -/
def State.withTariffs (x : State) (bad : Bool) : State := if bad then { x with hires := x.hires.map Hire.withoutTariff } else x

/-- The remainders when the configuration section is bad (R52). -/
def State.withRemainders (x : State) (bad : Bool) : State := if bad then x.remaindersBelow else x

/-- The hires restored and the totalizer write begun (R25, R26, R111). -/
def State.restored (y : State) : State := { y.restoreHires with shift := y.restoreHires.shift.taken }

/-- A start-up is its restoration, the totalizer write, the filing and the working memory, from the slots an interrupted recovery
left (R191). -/
theorem startUp_parts (s : State) (u : StartUp) : ∃ (store : JournalStore) (q : Ports) (y : State),
    y = ((s.atRestoration u store q).withTariffs (s.tariffs.tariffBad u)).withRemainders (s.tariffs.configBad u)
    ∧ s.startUp true u = y.restored.fileOn.workingMemory
    ∧ (s.partClear ≠ .recovering → store = s.journal.store)
    ∧ (s.partClear = .recovering → ∀ i, slotRead store i = if i / 16 ∈ u.erased then none else slotRead s.journal.store i)
    ∧ (s.journal.steady → (s.atRestoration u store q).journal.steady) := by
  obtain ⟨q, hq⟩ := levelLoaded_out s u
  obtain ⟨x, hx⟩ : ∃ x, x = ({ s with pins := u.lines, tariffs := s.tariffs.loaded u, shift := s.shift.storeLoaded u } : State).updateLowFrom
      s.tariffs.config.lowWater := ⟨_, rfl⟩
  rw [← hx] at hq
  obtain ⟨j, erased, hj, same, reads, steady⟩ := eraseLost_out x u.erased
  obtain ⟨s0, s1, s2, h0, h1, h2, parts⟩ := takeUp_parts x u (s.tariffs.configBad u) (s.tariffs.tariffBad u) (erased x rfl rfl)
  have hjournal : j = (s.atRestoration u j.store q).journal := by
    rw [hj, hq]
    rfl
  have hs0 : s0 = s.atRestoration u j.store q := by
    rw [h0, hjournal, hq]
    rfl
  refine ⟨j.store, q, s2, ?_, ?_, ?_, ?_, ?_⟩
  · rw [h2, h1, hs0]
    rfl
  · unfold State.restored State.startUp
    rw [← parts, hx]
    dsimp only
    rw [if_pos rfl]
  · rw [hq] at same
    exact same
  · rw [hq] at reads
    exact reads
  · rw [← hjournal]
    rw [hq] at steady
    exact steady

/-- Every remainder below k: the hires', the odometer's, and the vacant one while a shift is open or closing (R52). -/
theorem remaindersBelow_out (x : State) : x.remaindersBelow = { x with
    hires := x.hires.map (Hire.remainderBelow x.tariffs.config.k)
    odoRem := x.odoRem % x.tariffs.config.k
    vacantRem := if x.shift.state = .closed then x.vacantRem else x.vacantRem % x.tariffs.config.k
    shift := x.remaindersBelow.shift } := by
  unfold State.remaindersBelow State.vacantBelow
  dsimp only
  split <;> rfl

/-- The metres drawn join total metres and, while a shift is open or closing, the vacant metres (R47, R52). -/
theorem remaindersBelow_shift (x : State) : ∃ z : ShiftAccounting,
    z = { x.shift with totals := { x.shift.totals with
      totalMetres := wrapAdd x.shift.totals.totalMetres (x.odoRem / x.tariffs.config.k) } }
    ∧ x.remaindersBelow.shift
      = if x.shift.state = .closed then z else z.count .vacantMetres (x.vacantRem / x.tariffs.config.k) := by
  unfold State.remaindersBelow State.vacantBelow
  dsimp only
  split
  · exact ⟨_, rfl, rfl⟩
  · exact ⟨_, rfl, rfl⟩

/-- The loss of the tariff section reaches the hires alone (R52). -/
theorem withTariffs_out (x : State) (bad : Bool) : x.withTariffs bad = { x with hires := (x.withTariffs bad).hires } := by
  unfold State.withTariffs
  split <;> rfl

theorem hire_withTariffs (x : State) (bad : Bool) (sl : SlotId) :
    (x.withTariffs bad).hire sl = if bad then (x.hire sl).withoutTariff else x.hire sl := by
  unfold State.withTariffs
  split
  · exact hires_get_map _ _ sl
  · rfl

/-- The loss of the configuration section reaches hires, remainders and shift alone (R52). -/
theorem withRemainders_out (x : State) (bad : Bool) : x.withRemainders bad = { x with
    hires := (x.withRemainders bad).hires
    odoRem := (x.withRemainders bad).odoRem
    vacantRem := (x.withRemainders bad).vacantRem
    shift := (x.withRemainders bad).shift } := by
  unfold State.withRemainders
  split
  · rw [remaindersBelow_out]
  · rfl

theorem hire_withRemainders (x : State) (bad : Bool) (sl : SlotId) :
    (x.withRemainders bad).hire sl = if bad then (x.hire sl).remainderBelow x.tariffs.config.k else x.hire sl := by
  unfold State.withRemainders State.hire
  split
  · rw [remaindersBelow_out]
    exact hires_get_map _ _ sl
  · rfl

/-! ### What is kept -/

/-- A state within the reach of a filing is another but for hires, ports, sign, shift and journal. -/
theorem eq_of_beyondFiling {s t : State} (h : t.beyondFiling = s.beyondFiling) :
    t = { s with hires := t.hires, ports := t.ports, sign := t.sign, shift := t.shift, journal := t.journal } := by
  cases s
  cases t
  simp only [State.beyondFiling, State.beyondStage, State.mk.injEq] at h ⊢
  simp only [h, and_self]

/-- The settlement check reads neither a hire's remainder nor whether it is metered. -/
theorem remainderBelow_settled (k : Nat) (h : Hire) : (h.remainderBelow k).released.settled = h.released.settled := rfl

theorem withoutTariff_settled (h : Hire) : h.withoutTariff.released.settled = h.released.settled := rfl

/-- Bad sections leave everything but hires, remainders and shift, and no hire's standing in the settlement check (R52). -/
theorem badSections_out (x : State) (tariffBad configBad : Bool) : ∃ y : State, y = (x.withTariffs tariffBad).withRemainders configBad
    ∧ y = { x with hires := y.hires, odoRem := y.odoRem, vacantRem := y.vacantRem, shift := y.shift }
    ∧ ∀ sl, (y.hire sl).released.settled = (x.hire sl).released.settled := by
  obtain ⟨w, hw⟩ : ∃ w, w = x.withTariffs tariffBad := ⟨_, rfl⟩
  obtain ⟨y, hy⟩ : ∃ y, y = w.withRemainders configBad := ⟨_, rfl⟩
  have wout := withTariffs_out x tariffBad
  have yout := withRemainders_out w configBad
  rw [← hw] at wout
  rw [← hy] at yout
  refine ⟨y, by rw [hy, hw], yout.trans (by rw [wout]), fun sl => ?_⟩
  · rw [hy, hw, hire_withRemainders, hire_withTariffs]
    split <;> split <;> simp only [remainderBelow_settled, withoutTariff_settled]

/-- A restoration with its totalizer write (R25, R26, R111). -/
theorem restored_out (y : State) : ∃ z : State, z = y.restored ∧ (∀ sl, z.hire sl = (y.hire sl).restored.checked)
    ∧ z.shift = (if y.hires.running = 0 then y.shift else y.shift.count .powerInterruptions 1).taken
    ∧ JSame y.journal z.journal ∧ z.beyondFiling = y.beyondFiling ∧ z.sign.override = y.sign.override
    ∧ ((∀ sl, (y.hire sl).released.settled = false) → z.journal = y.journal) := by
  obtain ⟨r, hr, rhire, rshift, rjournal, rbeyond, runsettled⟩ := restoreHires_out y
  unfold State.restored
  rw [← restoreHires_override, ← hr, ← rshift, ← rbeyond]
  exact ⟨_, rfl, rhire, rfl, rjournal, rfl, rfl, runsettled⟩

/-- The end of a start-up: hires, shift and journal as the filing left them, working memory at its power-on values, and everything else
as the restoration found it (R191). -/
theorem startUp_ends (y : State) : ∃ t : State, t = y.restored.fileOn.workingMemory
    ∧ t.hires = y.restored.fileOn.hires ∧ t.shift = y.restored.fileOn.shift ∧ t.journal = y.restored.fileOn.journal
    ∧ t = { y with
      hires := t.hires
      shift := t.shift
      journal := t.journal
      sign := t.sign
      alarm := y.alarm.powerOn
      ports := Ports.powerOn (y.alarm.state == AlarmState.active)
      indicators := 0
      intercom := Intercom.powerOn y.pins y.tariffs.config.depth .off
      closedMark := false
      checkWord := false
      power := .running }
    ∧ t.sign.override = y.sign.override ∧ t.sign.night = y.pins.night ∧ t.sign.test = none := by
  obtain ⟨z, hz, -, -, -, zbeyond, zoverride, -⟩ := restored_out y
  obtain ⟨v, hv⟩ : ∃ v, v = z.fileOn := ⟨_, rfl⟩
  have vout : v = { y with hires := v.hires, ports := v.ports, sign := v.sign, shift := v.shift, journal := v.journal } := by
    apply eq_of_beyondFiling
    rw [hv, fileOn_beyondFiling, zbeyond]
  have voverride : v.sign.override = y.sign.override := by
    rw [hv]
    exact (filed_override y.sign.override).fileOn zoverride
  have vnight : v.pins.night = y.pins.night := by rw [vout]
  obtain ⟨x, ht, xoverride, xnight, xtest⟩ := workingMemory_out v
  rw [← hz, ← hv, ht]
  refine ⟨_, rfl, rfl, rfl, rfl, ?_, xoverride.trans voverride, xnight.trans vnight, xtest⟩
  rw [vout]

end Sys2Proof.Machine
end

section
/-! The statement on a start-up with the retention memory intact (R191). -/

namespace Sys2Proof.Machine

/-! ### Filing that goes on -/

/-- What a start-up whose filing goes on leaves of hires, shift and journal, by the state its restoration starts from. -/
structure RestoredTo (y t : State) : Prop where
  hires : ∀ sl, t.hire sl = (y.hire sl).restored.checked
  shift : t.shift = (if y.hires.running = 0 then y.shift else y.shift.count .powerInterruptions 1).taken
  journal : t.journal = { y.journal with queue := t.journal.queue, low := t.journal.low, inFlight := t.journal.inFlight }
  inFlight : y.journal.inFlight.isSome → t.journal.inFlight = y.journal.inFlight
  low : (∀ sl, (y.hire sl).released.settled = false) → t.journal.low = y.journal.low

/-- What a start-up leaves of everything else: working memory at its power-on values, and the rest as its restoration found it (R191). -/
structure StartedFrom (y t : State) : Prop where
  kept : t = { y with
    hires := t.hires
    shift := t.shift
    journal := t.journal
    sign := t.sign
    alarm := y.alarm.powerOn
    ports := Ports.powerOn (y.alarm.state == AlarmState.active)
    indicators := 0
    intercom := Intercom.powerOn y.pins y.tariffs.config.depth .off
    closedMark := false
    checkWord := false
    power := .running }
  override : t.sign.override = y.sign.override
  night : t.sign.night = y.pins.night
  test : t.sign.test = none

/-- With a filing that can go on, or nothing to file, the hires and the accounts stand as restored (R25, R26, R129). -/
theorem restoredTo_of_goesOn {y t : State}
    (goes : y.journal.steady ∨ (y.journal.queue = [] ∧ ∀ sl, (y.hire sl).released.settled = false))
    (thires : t.hires = y.restored.fileOn.hires) (tshift : t.shift = y.restored.fileOn.shift)
    (tjournal : t.journal = y.restored.fileOn.journal) : RestoredTo y t := by
  obtain ⟨z, hz, zhire, zshift, zjournal, -, -, zunsettled⟩ := restored_out y
  have zgoes : z.journal.steady ∨ z.journal.queue = [] := by
    rcases goes with steady | ⟨nothing, unsettled⟩
    · exact .inl (zjournal.steady.2 steady)
    · exact .inr (by rw [zunsettled unsettled]; exact nothing)
  obtain ⟨f, filed, kept⟩ := fileOn_goesOn zgoes
  rw [← hz, filed] at thires tshift tjournal
  refine ⟨fun sl => ?_, tshift.trans zshift, ?_, fun some => ?_, fun unsettled => ?_⟩
  · rw [← zhire sl]
    exact congrArg (fun x => x.get sl) thires
  · rw [tjournal, zjournal]
  · have zsome : z.journal.inFlight = y.journal.inFlight := by rw [zjournal]
    rw [tjournal]
    exact (kept (by rw [zsome]; exact some)).trans zsome
  · rw [tjournal, zunsettled unsettled]

/-- The shift after a restoration: one interruption counted when a hire was running, and the totalizer write begun (R25, R111). -/
theorem interrupted_out (x : ShiftAccounting) (running : Nat) :
    (if running = 0 then x else x.count .powerInterruptions 1).taken = { x with
      counters := if running = 0 then x.counters else (x.count .powerInterruptions 1).counters
      totalsWrite := some ⟨x.totals, 0⟩
      remembered := false
      gained := 0
      totalsStatus := .ok } := by
  split <;> rfl

/-! ### The sections and the ports -/

/-- A bad tariff section leaves every place empty (R51). -/
theorem loaded_tariffBad {x : TariffStore} {u : StartUp} (bad : x.tariffBad u = true) :
    (x.loaded u).active = TariffSet.blank ∧ (x.loaded u).staging = TariffSet.blank := by
  have none := Option.isNone_iff_eq_none.1 bad
  unfold TariffStore.loaded
  dsimp only
  rw [none]
  exact ⟨rfl, rfl⟩

/-- A bad configuration section leaves the record of R59. -/
theorem loaded_configBad {x : TariffStore} {u : StartUp} (bad : x.configBad u = true) : (x.loaded u).config = ConfigRecord.lost := by
  have none := Option.isNone_iff_eq_none.1 bad
  unfold TariffStore.loaded
  dsimp only
  rw [none]
  rfl

/-- A port at power-on holds POWER_RESTORED, and the Fleet port ALARM while the alarm is ACTIVE (R171, R173). -/
theorem ports_powerOn_get (alarm : AlarmState) (p : PortId) : (Ports.powerOn (alarm == .active)).get p = ⟨none, [], 0, none, none,
    NoticeKind.powerRestored.mask ||| (if p = .fleet ∧ alarm = .active then NoticeKind.alarm.mask else 0), deliveredMask p,
    defaultStageMask p, none, []⟩ := by
  cases p <;> cases alarm <;> rfl

/-! ### Both sections sound -/

/-- The commands of a start-up that finds the retention memory intact (R188, R190, R191). -/
theorem exec_freezeExit {u : StartUp} {s : State} (frozen : s.power = .frozen) : exec (.freezeExit u) s = .next (s.startUp true u) := by
  show execFreezeExit u s = _
  unfold execFreezeExit
  rw [frozen]

theorem exec_powerOn_intact {u : StartUp} {s : State} (mark : s.closedMark = true) (check : s.checkWord = true)
    (good : u.retentionGood = true) : exec (.powerOn u) s = .next (s.startUp true u) := by
  show execPowerOn u s = _
  unfold execPowerOn State.intactAt
  rw [mark, check, good]
  rfl

/-- A start-up whose filing goes on: the state its restoration starts from, and what it leaves of it (R191). -/
theorem startUp_goesOn {u : StartUp} {s t : State}
    (goes : s.journal.steady ∨ (s.journal.queue = [] ∧ ∀ sl, (s.hire sl).released.settled = false)) (ht : t = s.startUp true u) :
    ∃ (store : JournalStore) (q : Ports) (y : State),
      y = ((s.atRestoration u store q).withTariffs (s.tariffs.tariffBad u)).withRemainders (s.tariffs.configBad u)
      ∧ y = { s.atRestoration u store q with hires := y.hires, odoRem := y.odoRem, vacantRem := y.vacantRem, shift := y.shift }
      ∧ (∀ sl, (y.hire sl).released.settled = (s.hire sl).released.settled)
      ∧ RestoredTo y t ∧ StartedFrom y t
      ∧ (s.partClear ≠ .recovering → store = s.journal.store)
      ∧ (s.partClear = .recovering → ∀ i, slotRead store i = if i / 16 ∈ u.erased then none else slotRead s.journal.store i) := by
  obtain ⟨store, q, y, hy, parts, same, reads, steady⟩ := startUp_parts s u
  obtain ⟨t', ht', thires, tshift, tjournal, kept, override, night, test⟩ := startUp_ends y
  obtain ⟨y', hy', yout, ysettled⟩ := badSections_out (s.atRestoration u store q) (s.tariffs.tariffBad u) (s.tariffs.configBad u)
  obtain rfl : y' = y := hy'.trans hy.symm
  obtain rfl : t' = t := ht'.trans (parts.symm.trans ht.symm)
  refine ⟨store, q, y', hy, yout, ysettled, restoredTo_of_goesOn ?_ thires tshift tjournal, ⟨kept, override, night, test⟩, same, reads⟩
  have yjournal : y'.journal = (s.atRestoration u store q).journal := by rw [yout]
  rw [yjournal]
  rcases goes with h | ⟨nothing, unsettled⟩
  · exact .inl (steady h)
  · exact .inr ⟨nothing, fun sl => (ysettled sl).trans (unsettled sl)⟩

/-- The first clause of O53's statement, by what is restored and what is at its power-on values. -/
theorem startUp_sound {u : StartUp} {s t : State}
    (goes : s.journal.steady ∨ (s.journal.queue = [] ∧ ∀ sl, (s.hire sl).released.settled = false))
    (configSound : s.tariffs.configBad u = false) (tariffSound : s.tariffs.tariffBad u = false) (ht : t = s.startUp true u) :
    ∃ (store : JournalStore) (q : Ports), RestoredTo (s.atRestoration u store q) t ∧ StartedFrom (s.atRestoration u store q) t
      ∧ (s.partClear ≠ .recovering → store = s.journal.store)
      ∧ (s.partClear = .recovering → ∀ i, slotRead store i = if i / 16 ∈ u.erased then none else slotRead s.journal.store i) := by
  obtain ⟨store, q, y, hy, -, -, restored, started, same, reads⟩ := startUp_goesOn goes ht
  rw [configSound, tariffSound] at hy
  obtain rfl : y = s.atRestoration u store q := hy
  exact ⟨store, q, restored, started, same, reads⟩

/-! ### The hires of a start-up -/

theorem checked_restored_running {h : Hire} {st : Stage} (hst : h.stage = st) (run : st = .engaged ∨ st = .metering) :
    h.restored.checked = { h with stage := .suspended, suspendReason := some .power, resumeStage := some st } := by
  rw [restored_running hst run]
  exact if_neg (by rw [settled_notStopped] <;> simp)

theorem checked_restored_stopped {h : Hire} (hst : h.stage = .stopped) :
    h.restored.checked = if h.released.settled then h.released.filed .paid else h.released := by
  rw [restored_stopped hst]
  rfl

theorem checked_restored_still {h : Hire} (hrun : h.running = false) (hst : h.stage ≠ .stopped) : h.restored.checked = h := by
  rw [restored_still hrun hst]
  exact if_neg (by simp [settled_notStopped hst])

/-! ### Filing that finds no slot -/

/-- The slots whose hires a start-up sends to FILING, A before B before C (R26). -/
def State.paidSlots (y : State) : List SlotId := [SlotId.a, .b, .c].filter (fun sl => (y.hire sl).released.settled)

/-- The HIRE record of a hire a start-up sends to FILING (R21, R26). -/
def State.paidRecord (y : State) (sl : SlotId) : JournalRecord :=
  ⟨y.shift.number, y.clock, .hire (((y.hire sl).released.filed .paid).record sl)⟩

theorem mem_paidSlots {y : State} {sl : SlotId} : sl ∈ y.paidSlots ↔ (y.hire sl).released.settled = true := by
  unfold State.paidSlots
  cases sl <;> simp

theorem paidSlots_nodup (y : State) : y.paidSlots.Nodup := List.Nodup.filter _ (by decide)

/-- A list filtered and mapped, taken at its head. -/
theorem map_filter_cons {α β : Type} (f : α → β) (p : α → Bool) (x : α) (xs : List α) :
    ((x :: xs).filter p).map f = (if p x = true then [f x] else []) ++ (xs.filter p).map f := by
  cases h : p x <;> simp [h]

/-- The settlement checks of the three slots queue the HIRE record of each hire they file, A before B before C (R120). -/
theorem settle_all_queue (w : State) : (((w.settle .a).settle .b).settle .c).journal.queue = w.journal.queue
    ++ ([SlotId.a, .b, .c].filter (fun sl => (w.hire sl).settled)).map
      (fun sl => ⟨w.shift.number, w.clock, .hire (((w.hire sl).filed .paid).record sl)⟩) := by
  obtain ⟨-, -, queueA, clockA⟩ := settle_queue w .a
  obtain ⟨-, -, queueB, clockB⟩ := settle_queue (w.settle .a) .b
  obtain ⟨-, -, queueC, -⟩ := settle_queue ((w.settle .a).settle .b) .c
  have hireB : (w.settle .a).hire .b = w.hire .b := hires_settle_other w (by simp)
  have hireC : ((w.settle .a).settle .b).hire .c = w.hire .c := by
    rw [hires_settle_other _ (by simp), hires_settle_other _ (by simp)]
  rw [queueC, queueB, queueA, clockB, clockA, hireC, hireB]
  simp only [settle_shift, map_filter_cons, List.filter_nil, List.map_nil, List.append_nil, List.append_assoc]

/-- The records a restoration queues (R21, R26). -/
theorem restored_queue (y : State) : y.restored.journal.queue = y.journal.queue ++ y.paidSlots.map y.paidRecord := by
  obtain ⟨w, hr, whire, wshift, hw⟩ := restoreHires_parts y
  have wnumber : w.shift.number = y.shift.number := by
    rw [wshift]
    split <;> rfl
  have wjournal : w.journal = y.journal ∧ w.clock = y.clock := by
    rw [hw]
    exact ⟨rfl, rfl⟩
  obtain ⟨wqueue, wclock⟩ := wjournal
  unfold State.restored
  dsimp only
  rw [hr, settle_all_queue, wqueue, wnumber, wclock]
  simp only [whire, restored_settled]
  refine (List.append_right_inj _).2 (List.map_congr_left fun sl paid => ?_)
  rw [restored_of_settled (mem_paidSlots.1 paid)]
  rfl

/-- A start-up whose filing finds no slot: each hire it sends to FILING is unfiled and its slot FREE, and the last of a CLOSING shift is
followed by the SHIFT record (R23, R102, R103, R124). -/
theorem restored_unfiled {y : State} (noPlace : NoPlace y.journal) (nothing : y.journal.queue = []) : ∃ v : State, v = y.restored.fileOn
    ∧ MovedByFiling y.journal v.journal ∧ v.journal.queue = []
    ∧ (∀ sl, sl ∈ y.paidSlots → v.hire sl = Hire.cleared) ∧ (∀ sl, sl ∉ y.paidSlots → v.hire sl = (y.hire sl).restored)
    ∧ (y.shift.state ≠ .closing ∨ y.shift.summary = true ∨ y.paidSlots = [] ∨ (∃ sl, sl ∉ y.paidSlots ∧ (y.hire sl).stage ≠ .free) →
        v.journal.unfiled = y.journal.unfiled ++ y.paidSlots.map y.paidRecord ∧ v.shift.state = y.shift.state)
    ∧ (y.shift.state = .closing → y.shift.summary = false → y.paidSlots ≠ [] → (∀ sl, sl ∉ y.paidSlots → (y.hire sl).stage = .free) →
        v.journal.unfiled = y.journal.unfiled ++ y.paidSlots.map y.paidRecord
            ++ [⟨y.shift.number, y.clock, .shift (y.shift.driver.getD 0) (y.shift.openTime.getD y.clock)
              (y.shift.closeTime.getD y.clock) v.shift.counters⟩]
          ∧ v.shift.state = .closed) := by
  have zqueue := restored_queue y
  rw [nothing, List.nil_append] at zqueue
  obtain ⟨z, hz, zhire, zshift, zjournal, zbeyond, -, -⟩ := restored_out y
  rw [← hz] at zqueue ⊢
  have zpaid : ∀ sl ∈ y.paidSlots, (z.hire sl).stage ≠ .free := by
    intro sl paid
    have settled := mem_paidSlots.1 paid
    rw [zhire, Hire.checked, restored_settled, if_pos settled]
    simp [Hire.filed]
  have zunpaid : ∀ sl, sl ∉ y.paidSlots → z.hire sl = (y.hire sl).restored := by
    intro sl unpaid
    rw [zhire, Hire.checked, restored_settled, if_neg (mt mem_paidSlots.2 unpaid)]
  have zfree : ∀ sl, sl ∉ y.paidSlots → ((z.hire sl).stage = .free ↔ (y.hire sl).stage = .free) := by
    intro sl unpaid
    rw [zunpaid sl unpaid, restored_free_iff]
  have zunfiled : z.journal.unfiled = y.journal.unfiled := by rw [zjournal]
  have zmoved : MovedByFiling y.journal z.journal := by
    unfold MovedByFiling
    rw [zjournal]
  obtain ⟨zstate, zsummary, znumber, zdriver, zopen, zclose⟩ : z.shift.state = y.shift.state ∧ z.shift.summary = y.shift.summary
      ∧ z.shift.number = y.shift.number ∧ z.shift.driver = y.shift.driver ∧ z.shift.openTime = y.shift.openTime
      ∧ z.shift.closeTime = y.shift.closeTime := by
    rw [zshift]
    split <;> exact ⟨rfl, rfl, rfl, rfl, rfl, rfl⟩
  obtain ⟨-, -, -, -, zclock, -⟩ := kept_of_beyondFiling zbeyond
  obtain ⟨v, hv, moved, empty, cleared, others, waits, closes⟩ := unfiled_one_after_another y.paidRecord
    (fun sl => ((y.hire sl).released.filed .paid).record sl) (fun _ => rfl) (fun _ => rfl) y.paidSlots z (z.journal.queue.length + 2)
    (paidSlots_nodup y) (zmoved.noPlace noPlace) zqueue zpaid (by rw [zqueue, List.length_map]; omega)
  rw [zstate, zsummary, zunfiled] at waits closes
  rw [znumber, zdriver, zopen, zclose, zclock] at closes
  refine ⟨v, hv, zmoved.trans moved, empty, cleared, fun sl unpaid => (others sl unpaid).trans (zunpaid sl unpaid), fun h => waits ?_,
    fun closing summary some free => closes closing summary some fun sl unpaid => (zfree sl unpaid).2 (free sl unpaid)⟩
  refine h.imp_right (Or.imp_right (Or.imp_right ?_))
  rintro ⟨sl, unpaid, aboard⟩
  exact ⟨sl, unpaid, mt (zfree sl unpaid).1 aboard⟩

/-- A part with no slot for a record has none when its restoration starts: an erasure frees slots in a recovery alone (R124, R131). -/
theorem atRestoration_noPlace {s : State} {u : StartUp} {store : JournalStore} (q : Ports)
    (same : s.partClear ≠ .recovering → store = s.journal.store) (noFlight : s.journal.inFlight = none)
    (noSlot : s.journal.writingOpen = false ∨ (s.partClear ≠ .recovering ∧ s.journal.slotFree s.journal.writer = false)) :
    NoPlace (s.atRestoration u store q).journal := by
  refine ⟨noFlight, ?_⟩
  rcases noSlot with closed | ⟨notRecovering, taken⟩
  · exact Bool.and_eq_false_imp.2 fun opened => absurd (closed.symm.trans opened) (by simp)
  · obtain rfl := same notRecovering
    exact (Bool.and_comm _ _).trans (Bool.and_eq_false_imp.2 fun free => absurd (taken.symm.trans free) (by simp))

/-! ### Sections found bad -/

/-- A hire aboard when the tariff section is bad is charged no step any more (R52). -/
theorem withoutTariff_aboard {h : Hire} (notFree : h.stage ≠ .free) (notBooked : h.stage ≠ .booked) : h.withoutTariff.unmetered = true := by
  simp [Hire.withoutTariff, notFree, notBooked]

/-- The interruption counted leaves the other counters (R105). -/
theorem interrupted_counter {x : ShiftAccounting} (hx : CountersLaw x) (running : Nat) {id : CounterId} (ne : id ≠ .powerInterruptions) :
    (if running = 0 then x else x.count .powerInterruptions 1).taken.counter id = x.counter id := by
  unfold ShiftAccounting.counter
  rw [interrupted_out]
  dsimp only
  split
  · rfl
  · exact (counter_count hx _ 1 id).trans (if_neg ne)

/-- With the configuration section bad every remainder is below the k of R59, 1000, and the metres drawn have joined their counts
(R52, R59). -/
theorem remainders_configBad {s : State} {u : StartUp} (bad : s.tariffs.configBad u = true) (store : JournalStore) (q : Ports)
    (tariffBad : Bool) : ∃ y : State, y = ((s.atRestoration u store q).withTariffs tariffBad).withRemainders true
    ∧ (∀ sl, (y.hire sl).metreRem = (s.hire sl).metreRem % 1000
        ∧ (y.hire sl).metres = min ((s.hire sl).metres + (s.hire sl).metreRem / 1000) 4294967295)
    ∧ y.odoRem = s.odoRem % 1000
    ∧ y.shift.totals = { s.shift.totals with totalMetres := (s.shift.totals.totalMetres + s.odoRem / 1000) % 1000000000 }
    ∧ (s.shift.state ≠ .closed → y.vacantRem = s.vacantRem % 1000
        ∧ (CountersLaw s.shift → CountersLaw y.shift
            ∧ y.shift.counter .vacantMetres = (s.shift.counter .vacantMetres).add (s.vacantRem / 1000))) := by
  obtain ⟨x, hx⟩ : ∃ x, x = (s.atRestoration u store q).withTariffs tariffBad := ⟨_, rfl⟩
  have xout := withTariffs_out (s.atRestoration u store q) tariffBad
  rw [← hx] at xout
  have hk : x.tariffs.config.k = 1000 := by
    have config : x.tariffs.config = (s.tariffs.loaded u).config := by
      rw [xout]
      rfl
    rw [config, loaded_configBad bad]
    rfl
  have xhire : ∀ sl, (x.hire sl).metreRem = (s.hire sl).metreRem ∧ (x.hire sl).metres = (s.hire sl).metres := by
    intro sl
    rw [hx, hire_withTariffs]
    split <;> exact ⟨rfl, rfl⟩
  obtain ⟨xodo, xvacant, xshift⟩ : x.odoRem = s.odoRem ∧ x.vacantRem = s.vacantRem ∧ x.shift = s.shift.storeLoaded u := by
    rw [xout]
    exact ⟨rfl, rfl, rfl⟩
  have yout := remaindersBelow_out x
  obtain ⟨z, hz, yshift⟩ := remaindersBelow_shift x
  rw [hk, xodo] at hz
  rw [hk, xvacant, xshift] at yshift
  have zlaw : CountersLaw s.shift → CountersLaw z := by
    rw [hz, xshift]
    exact id
  have ztotals : z.totals = { s.shift.totals with totalMetres := (s.shift.totals.totalMetres + s.odoRem / 1000) % 1000000000 } := by
    rw [hz, xshift]
    rfl
  refine ⟨x.remaindersBelow, by rw [hx]; rfl, fun sl => ?_, ?_, ?_, fun notClosed => ⟨?_, fun law => ?_⟩⟩
  · obtain ⟨rem, metres⟩ := xhire sl
    have yhire := hire_withRemainders x true sl
    rw [if_pos rfl, hk] at yhire
    rw [show x.remaindersBelow = x.withRemainders true from rfl, yhire, ← rem, ← metres]
    exact ⟨rfl, rfl⟩
  · rw [yout, hk, xodo]
  · rw [yshift, ← ztotals]
    split <;> rfl
  · rw [yout, hk, xvacant, xshift]
    exact if_neg notClosed
  · rw [yshift, if_neg (by exact notClosed), counter_count (zlaw law), if_pos rfl]
    refine ⟨countersLaw_count (zlaw law) _ _, ?_⟩
    rw [hz, xshift]
    rfl

/-- A start-up that finds the tariff section bad: no place holds anything, and each hire aboard is charged no step any more (R51, R52). -/
theorem startUp_tariffBad {u : StartUp} {s t : State}
    (goes : s.journal.steady ∨ (s.journal.queue = [] ∧ ∀ sl, (s.hire sl).released.settled = false)) (ht : t = s.startUp true u)
    (tariffBad : s.tariffs.tariffBad u = true) : t.tariffs.active = TariffSet.blank ∧ t.tariffs.staging = TariffSet.blank
      ∧ ∀ sl, (s.hire sl).stage ≠ .free → (s.hire sl).stage ≠ .booked → (t.hire sl).unmetered = true := by
  obtain ⟨store, q, y, hy, yout, -, restored, started, -, -⟩ := startUp_goesOn goes ht
  have ttariffs : t.tariffs = s.tariffs.loaded u := by
    rw [started.kept, yout]
    rfl
  obtain ⟨active, staging⟩ := loaded_tariffBad tariffBad
  rw [ttariffs]
  refine ⟨active, staging, fun sl notFree notBooked => ?_⟩
  obtain ⟨-, -, unmetered⟩ := checked_restored_figures (y.hire sl)
  rw [restored.hires, unmetered, hy, hire_withRemainders, hire_withTariffs, if_pos tariffBad]
  split <;> exact withoutTariff_aboard (h := s.hire sl) notFree notBooked

/-- A start-up that finds the configuration section bad: the record of R59, every remainder below its k, and the low mark under its level
(R52, R59, R125). -/
theorem startUp_configBad {u : StartUp} {s t : State}
    (goes : s.journal.steady ∨ (s.journal.queue = [] ∧ ∀ sl, (s.hire sl).released.settled = false)) (ht : t = s.startUp true u)
    (configBad : s.tariffs.configBad u = true) : t.tariffs.config = ⟨1000, 120, 90, 50000, false, 64, 64, 6⟩
      ∧ (∀ sl, (t.hire sl).metreRem = (s.hire sl).metreRem % 1000
          ∧ (t.hire sl).metres = min ((s.hire sl).metres + (s.hire sl).metreRem / 1000) 4294967295)
      ∧ t.odoRem = s.odoRem % 1000
      ∧ ((∀ sl, (s.hire sl).released.settled = false) →
          t.journal.low = if s.tariffs.config.lowWater = 64 then s.journal.low else decide (s.journal.free < 64))
      ∧ t.shift.totals = { s.shift.totals with totalMetres := (s.shift.totals.totalMetres + s.odoRem / 1000) % 1000000000 }
      ∧ (s.shift.state ≠ .closed → t.vacantRem = s.vacantRem % 1000
          ∧ (CountersLaw s.shift → t.shift.counter .vacantMetres = (s.shift.counter .vacantMetres).add (s.vacantRem / 1000))) := by
  obtain ⟨store, q, y, hy, yout, ysettled, restored, started, -, -⟩ := startUp_goesOn goes ht
  obtain ⟨y', hy', figures, odometer, totals, vacant⟩ := remainders_configBad configBad store q (s.tariffs.tariffBad u)
  rw [configBad] at hy
  obtain rfl : y' = y := hy'.trans hy.symm
  have config := loaded_configBad configBad
  refine ⟨?_, fun sl => ?_, ?_, fun unsettled => ?_, ?_, fun notClosed => ?_⟩
  · rw [started.kept, yout]
    exact config
  · obtain ⟨rem, metres, -⟩ := checked_restored_figures (y'.hire sl)
    rw [restored.hires, rem, metres]
    exact figures sl
  · rw [started.kept]
    exact odometer
  · have low : t.journal.low = (s.atRestoration u store q).journal.low := by
      rw [restored.low fun sl => (ysettled sl).trans (unsettled sl), yout]
    rw [low]
    unfold State.atRestoration
    dsimp only
    rw [config]
    exact if_congr eq_comm rfl rfl
  · rw [restored.shift, interrupted_out]
    exact totals
  · obtain ⟨vacantRem, vacantMetres⟩ := vacant notClosed
    refine ⟨by rw [started.kept]; exact vacantRem, fun law => ?_⟩
    obtain ⟨ylaw, metres⟩ := vacantMetres law
    rw [restored.shift, interrupted_counter ylaw _ (by simp)]
    exact metres

/-! ### The statement -/

/-- Settles O53: both sections sound, by what is restored and what is at its power-on values; no slot for a record, by the records that
go unfiled; a section bad, by what its loss changes before the restoration. -/
theorem startUpTakesUpTheRetainedState : Obligations.StartUpTakesUpTheRetainedState := by
  refine ⟨fun u s t goes configSound tariffSound ht => ?_,
    fun u s t paid records noFlight nothing noSlot configSound tariffSound ht hpaid hrecords => ?_, fun u s t goes ht => ?_⟩
  · obtain ⟨store, q, restored, started, same, reads⟩ := startUp_sound goes configSound tariffSound ht
    refine ⟨fun frozen => ?_, fun mark check good => ?_, fun sl st hst run => (restored.hires sl).trans (checked_restored_running hst run),
      fun sl hst => (restored.hires sl).trans (checked_restored_stopped hst),
      fun sl hrun hst => (restored.hires sl).trans (checked_restored_still hrun hst), ?_⟩
    · rw [ht]
      exact exec_freezeExit frozen
    · rw [ht]
      exact exec_powerOn_intact mark check good
    have tlow : (∀ sl, (s.hire sl).released.settled = false) →
        t.journal.low = if t.tariffs.config.lowWater = s.tariffs.config.lowWater then s.journal.low
          else decide (s.journal.free < t.tariffs.config.lowWater) := by
      intro unsettled
      rw [restored.low unsettled, started.kept]
      rfl
    -- the shift's fields
    rw [restored.shift, interrupted_out]
    refine ⟨rfl, rfl, rfl, rfl, rfl, rfl, rfl, rfl, rfl, rfl, rfl, rfl, rfl, ?_⟩
    -- the journal's bookkeeping
    refine ⟨fun h => ?_, fun h => ?_, ?_, ?_, ?_, ?_, ?_, ?_, restored.inFlight, tlow, ?_⟩
    case refine_3 => rw [started.kept]; rfl
    case refine_9 =>
      -- working memory, and what stands
      rw [started.kept]
      exact ⟨rfl, started.override, started.night, started.test, rfl, rfl, rfl, rfl, rfl, rfl, rfl, rfl, rfl, rfl, rfl, rfl, rfl, rfl,
        ports_powerOn_get _⟩
    all_goals rw [restored.journal]
    case refine_1 => exact same h
    case refine_2 => exact reads h
    all_goals rfl
  · obtain ⟨store, q, y, hy, parts, same, -, -⟩ := startUp_parts s u
    rw [configSound, tariffSound] at hy
    obtain rfl : y = s.atRestoration u store q := hy
    have noPlace := atRestoration_noPlace (u := u) q same noFlight noSlot
    obtain ⟨v, hv, moved, empty, cleared, others, waits, closes⟩ := restored_unfiled noPlace nothing
    obtain ⟨t', ht', thires, tshift, tjournal, -⟩ := startUp_ends (s.atRestoration u store q)
    obtain rfl : t' = t := ht'.trans (parts.symm.trans ht.symm)
    rw [← hv] at thires tshift tjournal
    have thire : ∀ sl, t'.hire sl = v.hire sl := fun sl => congrArg (fun x => x.get sl) thires
    obtain rfl : paid = (s.atRestoration u store q).paidSlots := hpaid
    obtain rfl : records = (s.atRestoration u store q).paidSlots.map (s.atRestoration u store q).paidRecord := hrecords
    rw [tjournal, tshift]
    refine ⟨fun sl paid => (thire sl).trans (cleared sl paid), fun sl unpaid => (thire sl).trans (others sl unpaid), empty, ?_, ?_, ?_, ?_, ?_,
      waits, fun driver openTime closeTime closing summary some free hdriver hopen hclose => ?_⟩
    · rw [moved]
      exact noFlight
    · rw [moved]; rfl
    · rw [moved]; rfl
    · rw [moved]; rfl
    · rw [moved]; rfl
    · have closed := closes closing summary some free
      rw [show (s.atRestoration u store q).shift.driver = _ from hdriver, show (s.atRestoration u store q).shift.openTime = _ from hopen,
        show (s.atRestoration u store q).shift.closeTime = _ from hclose] at closed
      exact closed
  · exact ⟨startUp_tariffBad goes ht, startUp_configBad goes ht⟩

end Sys2Proof.Machine
end

section
/-! The metre method and the charging of a step (R29, R40 to R44): the statements on them. -/

namespace Sys2Proof.Machine

/-! ### The metre method -/

/-- A pulse's 1000 go into the metres drawn and the remainder (R29). -/
theorem metre_method (k rem : Nat) : metresDrawn k rem * k + metreRemainder k rem = rem + 1000 :=
  Nat.div_add_mod' _ _

theorem metreRemainder_lt {k : Nat} (hk : 0 < k) (rem : Nat) : metreRemainder k rem < k := Nat.mod_lt _ hk

/-- One pulse draws at least 1000 / k metres (R29). -/
theorem le_metresDrawn {k n : Nat} (hk : 0 < k) (rem : Nat) (h : n * k ≤ 1000) : n ≤ metresDrawn k rem :=
  (Nat.le_div_iff_mul_le hk).2 (h.trans (Nat.le_add_left _ _))

/-- One pulse on a remainder below k draws fewer than n + 1 metres where 1000 is at most n times k (R29). -/
theorem metresDrawn_le {k n rem : Nat} (hrem : rem < k) (h : 1000 ≤ n * k) : metresDrawn k rem ≤ n := by
  refine Nat.lt_succ_iff.1 ((Nat.div_lt_iff_lt_mul (by omega)).2 ?_)
  show rem + 1000 < n.succ * k
  rw [Nat.succ_mul]
  omega

/-- After p pulses from 0 the count is the whole part of p × 1000 / k and the remainder what is left (R29). -/
theorem metreRun_eq {k : Nat} (hk : 0 < k) (p : Nat) : metreRun k p = (p * 1000 / k, p * 1000 % k) := by
  induction p with
  | zero => simp [metreRun]
  | succ p ih =>
    have units : (p + 1) * 1000 = k * (p * 1000 / k) + (p * 1000 % k + 1000) := by
      have := Nat.div_add_mod (p * 1000) k
      omega
    simp only [metreRun, ih]
    rw [units, Nat.mul_add_div hk, Nat.mul_add_mod]
    rfl

/-- The totals after an odometer pulse, whether or not it asks for a totalizer write (R48, R109). -/
theorem addOdometer_totals (x : ShiftAccounting) (n : Nat) :
    (x.addOdometer n).totals = { x.totals with totalMetres := (x.totals.totalMetres + n) % 1000000000 } := by
  unfold ShiftAccounting.addOdometer
  dsimp only
  split
  · rw [(askTotals_parts _).1]
    rfl
  · rfl

/-- Settles O33: the division with remainder by k behind one pulse, and the closed form by induction on the pulses. -/
theorem metresAreDrawnFromPulses : Obligations.MetresAreDrawnFromPulses := by
  refine ⟨fun k rem hk => ⟨metreRemainder_lt hk rem, metre_method k rem⟩, fun k rem hrem => ⟨fun big => ?_, fun low high => ⟨?_, ?_⟩,
    fun low high => ⟨?_, ?_⟩⟩, fun k p hk => metreRun_eq hk p, by decide, by decide, fun k h => ⟨rfl, rfl⟩,
    fun s => ⟨rfl, rfl, rfl, ?_⟩⟩
  · exact metresDrawn_le hrem (by omega)
  · exact le_metresDrawn (by omega) rem (by omega)
  · exact metresDrawn_le hrem (by omega)
  · exact le_metresDrawn (by omega) rem (by omega)
  · exact metresDrawn_le hrem (by omega)
  · exact congrArg Totals.totalMetres (addOdometer_totals s.shift _)

/-! ### Charging a step -/

/-- A charge that stays within the cap is taken whole (R43). -/
theorem chargeOf_within {h : Hire} {c : Nat} (uncapped : h.capped = false) (within : h.metered + h.extrasAmount + c ≤ 999999) :
    h.chargeOf c = c := by
  unfold Hire.chargeOf
  rw [uncapped, if_neg (by simp)]
  exact if_neg (Nat.not_lt.2 within)

/-- A charge that passes the cap is cut at it (R43). -/
theorem chargeOf_beyond {h : Hire} {c : Nat} (uncapped : h.capped = false) (beyond : 999999 < h.metered + h.extrasAmount + c) :
    h.chargeOf c = 999999 - h.metered - h.extrasAmount := by
  unfold Hire.chargeOf
  rw [uncapped, if_neg (by simp)]
  exact if_pos beyond

/-- A capped hire is charged nothing (R43). -/
theorem chargeOf_capped {h : Hire} (c : Nat) (capped : h.capped = true) : h.chargeOf c = 0 := by
  unfold Hire.chargeOf
  rw [if_pos capped]

/-- A step caps a hire that was capped before, or whose total due it would carry past the cap (R43). -/
theorem charge_capped_iff (h : Hire) (amount share : Nat) : (h.charge amount share).capped = true ↔
    h.capped = true ∨ 999999 < h.metered + h.extrasAmount + (amount * share + h.residue) / 100 :=
  (Bool.or_eq_true _ _).to_iff.trans (or_congr Iff.rfl decide_eq_true_iff)

theorem charge_metered (h : Hire) (amount share : Nat) :
    (h.charge amount share).metered = h.metered + h.chargeOf ((amount * share + h.residue) / 100) := rfl

/-- A step on a hire not capped by it carries every fraction: one hundred times the metered amount and the residue rise by A × s
(R41, R42). -/
theorem charge_uncapped {h : Hire} {amount share : Nat} (uncapped : (h.charge amount share).capped = false) :
    h.capped = false
      ∧ 100 * (h.charge amount share).metered + (h.charge amount share).residue = 100 * h.metered + h.residue + amount * share := by
  obtain ⟨before, within⟩ := not_or.1 (mt (charge_capped_iff h amount share).2 (by simp [uncapped]))
  have before := Bool.eq_false_iff.2 before
  refine ⟨before, ?_⟩
  have parts := Nat.div_add_mod (amount * share + h.residue) 100
  rw [charge_metered, chargeOf_within before (Nat.not_lt.1 within)]
  show 100 * _ + (amount * share + h.residue) % 100 = _
  omega

/-- A hire that is not capped at the end was not capped before any step, and no step lost a fraction (R42). -/
theorem chargeAll_uncapped (steps : List (Nat × Nat)) (h : Hire) (uncapped : (chargeAll h steps).capped = false) :
    h.capped = false ∧ 100 * (chargeAll h steps).metered + (chargeAll h steps).residue
      = 100 * h.metered + h.residue + (steps.map (fun a => a.1 * a.2)).sum := by
  induction steps generalizing h with
  | nil => exact ⟨uncapped, rfl⟩
  | cons a rest ih =>
    obtain ⟨uncappedNext, sums⟩ := ih (h.charge a.1 a.2) uncapped
    obtain ⟨uncappedFirst, first⟩ := charge_uncapped uncappedNext
    refine ⟨uncappedFirst, sums.trans ?_⟩
    rw [first, List.map_cons, List.sum_cons, Nat.add_assoc]

/-- A start-up's change of a hire leaves its metered amount and residue (R25, R26). -/
theorem restored_metered (h : Hire) : h.restored.metered = h.metered ∧ h.restored.residue = h.residue := by
  rcases restored_cases h with ⟨e, -⟩ | ⟨e, -⟩ | ⟨e, -⟩ <;> rw [e] <;> exact ⟨rfl, rfl⟩

/-- Settles O35: the sum over the steps by induction, a hire's start by its flag fall, and the four changes by their fields. -/
theorem residueCarriesEveryFraction : Obligations.ResidueCarriesEveryFraction :=
  ⟨fun h steps uncapped => (chargeAll_uncapped steps h uncapped).2, fun _ _ _ _ _ => ⟨rfl, rfl, rfl⟩,
    fun h _ _ => ⟨⟨rfl, rfl⟩, ⟨rfl, rfl⟩, ⟨rfl, rfl⟩, restored_metered h⟩⟩

/-- Settles O34: the charge by its three cases, within the cap, beyond it, and capped before. -/
theorem stepChargeFollowsShareResidueAndCap : Obligations.StepChargeFollowsShareResidueAndCap := by
  refine ⟨fun _ => ⟨rfl, rfl, rfl⟩, fun h amount share => ⟨_, _, rfl, rfl, rfl, fun free fits => ⟨?_, ?_⟩, fun free beyond => ⟨?_, ?_⟩,
    fun capped => ⟨?_, ?_⟩, rfl, rfl, rfl⟩⟩
  · rw [charge_metered, chargeOf_within free fits]
  · exact Bool.eq_false_iff.2 (mt (charge_capped_iff h amount share).1 (by simp [free, fits]))
  · rw [charge_metered, chargeOf_beyond free beyond]
  · exact (charge_capped_iff h amount share).2 (.inr beyond)
  · rw [charge_metered, chargeOf_capped _ capped, Nat.add_zero]
  · exact (charge_capped_iff h amount share).2 (.inl capped)

end Sys2Proof.Machine
end

section
/-! A wheel pulse: on a hire, on its distance accumulator, and on the cab (R31 to R34, R40, R44 to R48, R52), with its statement. -/

namespace Sys2Proof.Machine

/-! ### The band reached -/

/-- Among bands none of which is reached the number stands (R32). -/
theorem bandReached_none {k pulses : Nat} {bands : List Band} (beyond : ∀ y ∈ bands, pulses * 1000 < y.start * k) (best b : Nat) :
    bandReached k pulses best b bands = best := by
  induction bands generalizing best b with
  | nil => rfl
  | cons x rest ih =>
    obtain ⟨first, later⟩ := List.forall_mem_cons.1 beyond
    have kept : (if x.start * k ≤ pulses * 1000 then b else best) = best := if_neg (Nat.not_le.2 first)
    exact (congrArg (fun n => bandReached k pulses n (b + 1) rest) kept).trans (ih later best (b + 1))

/-- The last band whose start is reached gives its number (R32). -/
theorem bandReached_last {k pulses i : Nat} {bands : List Band} {x : Band} (at_i : bands[i]? = some x)
    (reached : x.start * k ≤ pulses * 1000) (beyond : ∀ j y, i < j → bands[j]? = some y → pulses * 1000 < y.start * k) (best b : Nat) :
    bandReached k pulses best b bands = b + i := by
  induction bands generalizing i best b with
  | nil => simp at at_i
  | cons y rest ih =>
    cases i with
    | zero =>
      obtain rfl : y = x := by simpa using at_i
      have taken : (if y.start * k ≤ pulses * 1000 then b else best) = b := if_pos reached
      refine (congrArg (fun n => bandReached k pulses n (b + 1) rest) taken).trans (bandReached_none (fun z hz => ?_) b (b + 1))
      obtain ⟨j, hj⟩ := List.mem_iff_getElem?.1 hz
      exact beyond (j + 1) z (by omega) hj
    | succ i =>
      exact (ih at_i (fun j z hj => beyond (j + 1) z (by omega)) _ (b + 1)).trans (by omega)

/-! ### The distance accumulator -/

theorem advance_time {k n : Nat} {t : Tariff} {x : Band} (h : Hire) (hx : x.mode = .time) : h.advance k n t x = h := by
  unfold Hire.advance
  rw [hx]

theorem advance_distance {k n : Nat} {t : Tariff} {x : Band} (h : Hire) (hx : x.mode ≠ .time) :
    h.advance k n t x = chargeDistance k n t x (h.distAcc + 1000) { h with distAcc := h.distAcc + 1000 } := by
  unfold Hire.advance
  split
  · rename_i time
    exact absurd time hx
  · rfl

/-- One distance trigger: the threshold taken, the mode's rule, and a step (R34, R36 to R38). -/
def Hire.distStep (k n : Nat) (t : Tariff) (x : Band) (h : Hire) : Hire :=
  (Hire.distTrigger x.mode { h with distAcc := h.distAcc - distThreshold k t x h }).charge x.amount (sharePercent t n)

/-- What the trigger of each mode clears (R36 to R38). -/
theorem distTrigger_eq (m : BandMode) (h : Hire) : Hire.distTrigger m h = { h with
    timeAcc := if m = .combined then 0 else h.timeAcc
    distInitial := false
    timeInitial := if m = .combined then false else h.timeInitial } := by
  cases m <;> rfl

/-- After a trigger the threshold is that of the band's step (R30). -/
theorem distThreshold_distStep (k n : Nat) (t : Tariff) (x : Band) (h : Hire) :
    distThreshold k t x (h.distStep k n t x) = x.step * k := by
  unfold Hire.distStep
  rw [distTrigger_eq]
  rfl

theorem distAcc_distStep (k n : Nat) (t : Tariff) (x : Band) (h : Hire) :
    (h.distStep k n t x).distAcc = h.distAcc - distThreshold k t x h := by
  unfold Hire.distStep
  rw [distTrigger_eq]
  rfl

/-- Below the threshold nothing is charged (R34). -/
theorem chargeDistance_below {k n fuel : Nat} {t : Tariff} {x : Band} {h : Hire} (below : h.distAcc < distThreshold k t x h) :
    chargeDistance k n t x fuel h = h := by
  cases fuel with
  | zero => rfl
  | succ fuel => exact if_neg fun reached => Nat.not_le.2 below reached.2

/-- At the threshold one step is charged, and the triggers go on (R34). -/
theorem chargeDistance_step {k n fuel : Nat} {t : Tariff} {x : Band} {h : Hire} (positive : 0 < distThreshold k t x h)
    (reached : distThreshold k t x h ≤ h.distAcc) :
    chargeDistance k n t x (fuel + 1) h = chargeDistance k n t x fuel (h.distStep k n t x) :=
  if_pos ⟨positive, reached⟩

/-- One step alone is charged where it leaves less than a step (R34). -/
theorem chargeDistance_once {k n fuel : Nat} {t : Tariff} {x : Band} {h : Hire} (positive : 0 < distThreshold k t x h)
    (reached : distThreshold k t x h ≤ h.distAcc) (rest : h.distAcc - distThreshold k t x h < x.step * k) :
    chargeDistance k n t x (fuel + 1) h = h.distStep k n t x := by
  rw [chargeDistance_step positive reached]
  refine chargeDistance_below ?_
  rw [distThreshold_distStep, distAcc_distStep]
  exact rest

/-- The triggers end with the accumulator below the threshold: each takes at least one unit (R34). -/
theorem chargeDistance_ends {k n fuel : Nat} {t : Tariff} {x : Band} {h : Hire} (step : 0 < x.step * k)
    (positive : 0 < distThreshold k t x h) (enough : h.distAcc ≤ fuel) :
    (chargeDistance k n t x fuel h).distAcc < distThreshold k t x (chargeDistance k n t x fuel h) := by
  induction fuel generalizing h with
  | zero =>
    show h.distAcc < distThreshold k t x h
    omega
  | succ fuel ih =>
    by_cases reached : distThreshold k t x h ≤ h.distAcc
    · rw [chargeDistance_step positive reached]
      exact ih (by rw [distThreshold_distStep]; exact step) (by rw [distAcc_distStep]; omega)
    · rw [chargeDistance_below (Nat.not_le.1 reached)]
      exact Nat.not_le.1 reached

/-- A threshold is above zero where the tariff's distances are (R30, R53). -/
theorem distThreshold_pos {k : Nat} {t : Tariff} {x : Band} {h : Hire} (hk : 0 < k) (step : 1 ≤ x.step)
    (initial : h.distInitial = true → 1 ≤ t.d0) : 0 < distThreshold k t x h := by
  refine Nat.mul_pos ?_ hk
  split
  · exact initial (by assumption)
  · exact step

/-! ### A pulse on a hire -/

/-- No tariff meters a FIXED hire, one whose tariff a start-up lost, or one whose tariff place is empty (R45, R52). -/
theorem meteredBy_none {active : TariffSet} {h : Hire}
    (unmetered : h.tariffKind = .fixed ∨ h.unmetered = true ∨ active.tariff h.tariffId = none) : meteredBy active h = none := by
  unfold meteredBy
  split
  · rfl
  · rename_i metered
    rcases unmetered with fixed | lost | empty
    · exact absurd (metered.symm.trans fixed) (by simp)
    · exact if_pos lost
    · rw [empty, ite_self]

theorem meteredBy_some {active : TariffSet} {h : Hire} {t : Tariff} (metered : h.tariffKind = .metered) (kept : h.unmetered = false)
    (ht : active.tariff h.tariffId = some t) : meteredBy active h = some t := by
  unfold meteredBy
  rw [metered, kept]
  exact ht

/-- A SUSPENDED hire counts distance alone (R46). -/
theorem pulse_suspended {k n : Nat} {active : TariffSet} {h : Hire} (suspended : h.stage = .suspended) :
    h.pulse k n active = h.travel k := by
  unfold Hire.pulse
  rw [if_neg (by simp [Hire.running, suspended]), if_pos suspended]

/-- A running hire that no tariff meters counts distance alone (R45, R52). -/
theorem pulse_unmetered {k n : Nat} {active : TariffSet} {h : Hire} (run : h.running = true) (unmetered : meteredBy active h = none) :
    h.pulse k n active = h.travel k := by
  unfold Hire.pulse
  rw [if_pos run, unmetered]

/-- A metered running hire counts distance, then meters the pulse (R32). -/
theorem pulse_metered {k n : Nat} {active : TariffSet} {h : Hire} {t : Tariff} (run : h.running = true)
    (metered : meteredBy active h = some t) : h.pulse k n active = (h.travel k).meterPulse k n t := by
  unfold Hire.pulse
  rw [if_pos run, metered]

/-- Any other hire is left as it is (R31). -/
theorem pulse_still {k n : Nat} {active : TariffSet} {h : Hire} (still : h.running = false) (notSuspended : h.stage ≠ .suspended) :
    h.pulse k n active = h := by
  unfold Hire.pulse
  rw [if_neg (by simp [still]), if_neg notSuspended]

/-- A pulse that reaches another band changes to it and charges nothing (R33). -/
theorem meterPulse_otherBand {k n best : Nat} {t : Tariff} {h : Hire} (reached : bandReached k h.pulses h.band 1 t.bands = best)
    (other : best ≠ h.band) : h.meterPulse k n t = h.enterBand best := by
  unfold Hire.meterPulse
  dsimp only
  rw [reached, if_pos other]

/-- A pulse within its band goes on to the distance accumulator (R34). -/
theorem meterPulse_sameBand {k n : Nat} {t : Tariff} {x : Band} {h : Hire} (reached : bandReached k h.pulses h.band 1 t.bands = h.band)
    (positive : 1 ≤ h.band) (hx : t.bands[h.band - 1]? = some x) : h.meterPulse k n t = h.advance k n t x := by
  have band : t.band h.band = some x := (if_neg (by omega)).trans hx
  unfold Hire.meterPulse
  dsimp only
  rw [reached, if_neg (not_not.2 rfl), band]

/-- A pulse short of the threshold adds its units (R34). -/
theorem advance_below {k n : Nat} {t : Tariff} {x : Band} {h : Hire} (hx : x.mode ≠ .time)
    (below : h.distAcc + 1000 < distThreshold k t x h) : h.advance k n t x = { h with distAcc := h.distAcc + 1000 } := by
  rw [advance_distance h hx]
  exact chargeDistance_below below

/-- A pulse that reaches the threshold charges one step where a step is no shorter than a pulse (R34). -/
theorem advance_once {k n : Nat} {t : Tariff} {x : Band} {h : Hire} (hx : x.mode ≠ .time) (long : 1000 ≤ x.step * k)
    (below : h.distAcc < distThreshold k t x h) (reached : distThreshold k t x h ≤ h.distAcc + 1000) :
    h.advance k n t x = Hire.distStep k n t x { h with distAcc := h.distAcc + 1000 } := by
  have rest : h.distAcc + 1000 - distThreshold k t x h < x.step * k := by omega
  rw [advance_distance h hx]
  exact chargeDistance_once (Nat.zero_lt_of_lt below) reached rest

/-- The highest band reached, met on a pulse (R32). -/
theorem bandReached_best {k pulses best : Nat} {t : Tariff} {x : Band} (band : Nat) (hx : t.bands[best - 1]? = some x) (positive : 1 ≤ best)
    (reached : x.start * k ≤ pulses * 1000)
    (beyond : ∀ (j : Nat) (y : Band), best ≤ j → t.bands[j]? = some y → pulses * 1000 < y.start * k) :
    bandReached k pulses band 1 t.bands = best :=
  (bandReached_last hx reached (fun j y hj => beyond j y (by omega)) band 1).trans (by omega)

/-! ### The pulse on the cab -/

/-- A change made to every hire touches hires, ports and sign (R12). -/
theorem eachHire_only (s : State) (f : Hire → Hire) : s.eachHire f =
    { s with hires := (s.eachHire f).hires, ports := (s.eachHire f).ports, sign := (s.eachHire f).sign } := by
  have kept := kept_of_beyondStage (eachHire_beyondStage s f)
  have out := eq_of_beyondFiling (beyondFiling_of_beyondStage (eachHire_beyondStage s f))
  rw [kept.1, kept.2] at out
  exact out

/-- A hire written back leaves the stage-notice masks (R182). -/
theorem writeHire_stageMask (s : State) (sl : SlotId) (h : Hire) (p : PortId) :
    ((s.writeHire sl h).port p).stageMask = (s.port p).stageMask := by
  unfold State.writeHire
  split
  · rfl
  · unfold State.port
    rw [enterStage_ports, ports_get_stageEntered]
    unfold Port.stageEntered
    split <;> rfl

/-- A hire written back in another stage tells the ports whose mask includes that stage (R5, R12). -/
theorem writeHire_notice {s : State} {sl : SlotId} {h : Hire} {p : PortId} (changes : h.stage ≠ (s.hire sl).stage)
    (mask : (s.port p).stageMask.getLsbD h.stage.bit = true) : ((s.writeHire sl h).port p).holds (stageKind sl) = true := by
  unfold State.writeHire State.port
  rw [if_neg changes, enterStage_ports, ports_get_stageEntered]
  unfold Port.stageEntered
  rw [if_pos (by exact mask)]
  exact add_self _ _

/-- A change made to every hire tells the ports of each stage it changes (R5, R12). -/
theorem eachHire_notice {s : State} {f : Hire → Hire} {sl : SlotId} {p : PortId} (changes : (f (s.hire sl)).stage ≠ (s.hire sl).stage)
    (mask : (s.port p).stageMask.getLsbD (f (s.hire sl)).stage.bit = true) : ((s.eachHire f).port p).holds (stageKind sl) = true := by
  cases sl with
  | a => exact ((mild_writeHire _ .b _).trans (mild_writeHire _ .c _)).p p _ (writeHire_notice changes mask)
  | b =>
    refine (mild_writeHire _ .c _).p p _ (writeHire_notice ?_ ?_)
    · rw [hire_writeHire_other _ _ (by simp)]
      exact changes
    · rw [writeHire_stageMask]
      exact mask
  | c =>
    refine writeHire_notice ?_ ?_
    · rw [hire_writeHire_other _ _ (by simp), hire_writeHire_other _ _ (by simp)]
      exact changes
    · rw [writeHire_stageMask, writeHire_stageMask]
      exact mask

theorem forall_slot_iff {P : SlotId → Prop} : (∀ sl, P sl) ↔ P .a ∧ P .b ∧ P .c := by
  refine ⟨fun all => ⟨all .a, all .b, all .c⟩, ?_⟩
  rintro ⟨a, b, c⟩ sl
  cases sl <;> assumption

/-- No slot satisfies a test counted 0 times. -/
theorem count_eq_zero_iff (t : HireTable) (f : Hire → Bool) : t.count f = 0 ↔ ∀ sl, f (t.get sl) = false := by
  simp [HireTable.count, HireTable.get, forall_slot_iff, and_assoc]

/-- A pulse is vacant distance in a shift, with no hire running or SUSPENDED (R47). -/
theorem vacant_iff (s : State) :
    s.vacant = true ↔ s.shift.state ≠ .closed ∧ ∀ sl, (s.hire sl).running = false ∧ (s.hire sl).stage ≠ .suspended := by
  simp [State.vacant, count_eq_zero_iff, State.hire]

/-- Shift Accounting after a pulse's vacant metres (R47). -/
def State.pulsedShift (s : State) : ShiftAccounting :=
  if s.vacant then s.shift.count .vacantMetres (metresDrawn s.tariffs.config.k s.vacantRem) else s.shift

/-- A pulse: every slot, the vacant remainder, and the odometer (R31). -/
theorem wheelPulse_out (s : State) : ∃ e : State, e = s.eachHire (Hire.pulse s.tariffs.config.k s.hires.running s.tariffs.active)
    ∧ s.wheelPulse = { s with
      hires := e.hires
      ports := e.ports
      sign := e.sign
      vacantRem := if s.vacant then metreRemainder s.tariffs.config.k s.vacantRem else s.vacantRem
      odoRem := metreRemainder s.tariffs.config.k s.odoRem
      shift := s.pulsedShift.addOdometer (metresDrawn s.tariffs.config.k s.odoRem) } := by
  refine ⟨_, rfl, ?_⟩
  have only := eachHire_only s (Hire.pulse s.tariffs.config.k s.hires.running s.tariffs.active)
  unfold State.wheelPulse State.pulsedShift
  dsimp only
  rw [only]
  split <;> rfl

theorem addOdometer_counters (x : ShiftAccounting) (n : Nat) : (x.addOdometer n).counters = x.counters := by
  unfold ShiftAccounting.addOdometer
  dsimp only
  split
  · exact askTotals_counters _
  · rfl

theorem pulsedShift_totals (s : State) : s.pulsedShift.totals = s.shift.totals := by
  unfold State.pulsedShift
  split <;> rfl

/-! ### The statement -/

/-- Settles O36: a pulse on a hire by what meters it and the band it reaches; the accumulator by what its triggers leave; the cab by the
parts of a pulse. -/
theorem pulsesAdvanceTheCab : Obligations.PulsesAdvanceTheCab := by
  refine ⟨fun k n active h => ⟨?_, pulse_still, fun t best run metered kept ht _ hbest beyond => ?_⟩,
    fun k n t x h hk step initial hx => ?_, fun s run => ?_⟩
  · rintro (suspended | ⟨run, unmetered⟩)
    · exact pulse_suspended suspended
    · exact pulse_unmetered run (meteredBy_none unmetered)
  · obtain ⟨x, hx, positive, reached⟩ := hbest
    have best_reached := bandReached_best (h.travel k).band hx positive reached beyond
    rw [pulse_metered run (meteredBy_some metered kept ht)]
    refine ⟨meterPulse_otherBand best_reached, ?_⟩
    have within : best = h.band → ∀ y, t.bands[best - 1]? = some y → (h.travel k).meterPulse k n t = (h.travel k).advance k n t y := by
      rintro rfl y hy
      exact meterPulse_sameBand best_reached positive hy
    refine ⟨fun y same hy time => ?_, fun y same hy mode below => ?_, fun y same hy mode long below reached => ?_⟩
    · rw [within same y hy, advance_time _ time]
    · rw [within same y hy]
      exact advance_below mode below
    · rw [within same y hy, advance_once (h := h.travel k) mode long below reached, Hire.distStep, distTrigger_eq]
      rfl
  · rw [advance_distance h hx]
    exact chargeDistance_ends (Nat.mul_pos step hk) (distThreshold_pos hk step initial) (Nat.le_refl _)
  · obtain ⟨e, he, out⟩ := wheelPulse_out s
    have thire : ∀ sl, s.wheelPulse.hire sl = (s.hire sl).pulse s.tariffs.config.k s.hires.running s.tariffs.active := by
      intro sl
      rw [out, he]
      exact hire_eachHire s _ sl
    refine ⟨s.wheelPulse, congrArg Host.Outcome.next (whenRunning_eq run _), thire, ?_, ?_, fun inShift idle => ?_, fun busy => ?_,
      fun p sl engaged metering mask => ?_, ?_⟩
    · rw [out]
    · rw [out, ← pulsedShift_totals s]
      exact addOdometer_totals _ _
    · have vacant := (vacant_iff s).2 ⟨inShift, idle⟩
      rw [out]
      dsimp only
      rw [addOdometer_counters, State.pulsedShift, if_pos vacant, if_pos vacant]
      exact ⟨rfl, rfl⟩
    · have taken : ¬s.vacant = true := by
        rw [vacant_iff]
        rintro ⟨inShift, idle⟩
        rcases busy with closed | ⟨sl, running | suspended⟩
        · exact inShift closed
        · exact absurd running (by simp [(idle sl).1])
        · exact (idle sl).2 suspended
      rw [out]
      dsimp only
      rw [addOdometer_counters, State.pulsedShift, if_neg taken, if_neg taken]
      exact ⟨rfl, rfl⟩
    · rw [thire] at metering
      rw [out, he]
      refine eachHire_notice ?_ ?_
      · rw [metering, engaged]
        simp
      · rw [metering]
        exact mask
    · rw [out]

end Sys2Proof.Machine
end

section
/-! SET_CONFIG and the configuration write (R49, R60 to R62), with their statement. -/

namespace Sys2Proof.Machine

/-! ### The checks of SET_CONFIG -/

theorem storeBusy_iff (s : State) :
    s.storeBusy = true ↔ s.tariffs.activation.isSome ∨ s.tariffs.configWrite.isSome ∨ s.partClear ≠ .idle := by
  simp [State.storeBusy, or_assoc]

theorem changesK_iff (s : State) (f : ConfigFields) : changesK s f = true ↔ hasField f 1 = true ∧ f.k.toNat ≠ s.tariffs.config.k := by
  simp [changesK]

/-- With every check of R60 passing the record takes the fields. -/
theorem setConfigOwner_done {f : ConfigFields} {s : State} (idle : s.storeBusy = false) (inRange : fieldsInRange f = true)
    (allowed : changesK s f = true → s.shift.state = .closed ∧ s.pins.sealed = true) :
    setConfigOwner f s = done (s.configured f) [] := by
  refine checked_ok ?_
  cases change : changesK s f with
  | false => simp [firstRefusal, idle, inRange]
  | true => simp [firstRefusal, idle, inRange, allowed change]

theorem setConfigOwner_storeBusy {f : ConfigFields} {s : State} (busy : s.storeBusy = true) :
    setConfigOwner f s = (s, .refuse .storeBusy) :=
  checked_no (by simp [firstRefusal, busy])

theorem setConfigOwner_range {f : ConfigFields} {s : State} (idle : s.storeBusy = false) (outside : fieldsInRange f = false) :
    setConfigOwner f s = (s, .refuse .range) :=
  checked_no (by simp [firstRefusal, idle, outside])

theorem setConfigOwner_shiftState {f : ConfigFields} {s : State} (idle : s.storeBusy = false) (inRange : fieldsInRange f = true)
    (change : changesK s f = true) (opened : s.shift.state ≠ .closed) : setConfigOwner f s = (s, .refuse .shiftState) :=
  checked_no (by simp [firstRefusal, idle, inRange, change, opened])

theorem setConfigOwner_sealed {f : ConfigFields} {s : State} (idle : s.storeBusy = false) (inRange : fieldsInRange f = true)
    (change : changesK s f = true) (closed : s.shift.state = .closed) (unsealed : s.pins.sealed = false) :
    setConfigOwner f s = (s, .refuse .sealed) :=
  checked_no (by simp [firstRefusal, idle, inRange, change, closed, unsealed])

/-- SET_CONFIG is its owner's work and reply, on the state with the seal line as it reads with the request (R60, R175). -/
theorem exec_setConfig {tag : Byte} {f : ConfigFields} {sealed : Bool} {s t : State} {c : Code} (ready : Ready s .fleet)
    (work : setConfigOwner f (s.sampleSeal sealed) = (t, .of c [])) :
    exec (.setConfig .fleet tag ⟨f, sealed⟩) s = .next (t.replied .fleet .setConfig tag c []) := by
  have taken := request_ready (s := s.sampleSeal sealed) (k := .setConfig) (tag := tag) (owner := setConfigOwner f) ready rfl
  rw [work] at taken
  show execSetConfig .fleet tag ⟨f, sealed⟩ s = _
  unfold execSetConfig unlessFrozen
  rw [if_neg (by rw [ready.1]; simp)]
  exact taken

/-! ### The fields -/

/-- A pooling field in its range is 0 or 1 (R59). -/
theorem onOff_inRange {b : Byte} (inRange : (onOff b).isSome) (old : Bool) : (onOff b).getD old = (b == 1) := by
  unfold onOff at inRange ⊢
  split
  · rename_i zero
    rw [zero]
    rfl
  · split
    · rename_i one
      rw [one]
      rfl
    · rename_i zero one
      rw [if_neg zero, if_neg one] at inRange
      exact absurd inRange Bool.false_ne_true

/-- The pooling value written (R60). -/
theorem updated_pooling {f : ConfigFields} (inRange : fieldsInRange f = true) (c : ConfigRecord) :
    (c.updated f).pooling = if hasField f 5 then f.pooling == 1 else c.pooling := by
  unfold ConfigRecord.updated
  dsimp only
  split
  · rename_i present
    refine onOff_inRange ?_ _
    simp only [fieldsInRange, Bool.and_eq_true, present, Bool.not_true, Bool.false_or] at inRange
    exact inRange.1.1.1.2
  · rfl

/-- The low mark under the level after the request: worked out afresh where the field changes it (R61). -/
theorem updated_low (c : ConfigRecord) (f : ConfigFields) (free : Int) (low : Bool) :
    (if (c.updated f).lowWater = c.lowWater then low else decide (free < (c.updated f).lowWater))
      = if hasField f 6 = true ∧ f.lowWater.toNat ≠ c.lowWater then decide (free < f.lowWater.toNat) else low := by
  unfold ConfigRecord.updated
  dsimp only
  by_cases present : hasField f 6 = true
  · by_cases same : f.lowWater.toNat = c.lowWater <;> simp [present, same]
  · simp [present]

/-! ### A new full level -/

/-- A level set on the ALARM lamp leaves the front lamps. -/
theorem alarmLevel_front (x : Sign) (n : Nat) : (x.alarmLevel n).lamps.vacant = x.lamps.vacant
    ∧ (x.alarmLevel n).lamps.hired = x.lamps.hired ∧ (x.alarmLevel n).lamps.offDuty = x.lamps.offDuty
    ∧ (x.alarmLevel n).lamps.share = x.lamps.share := by
  unfold Sign.alarmLevel
  split <;> exact ⟨rfl, rfl, rfl, rfl⟩

/-- A new full level reaches the sign alone, and not its ambient value (R136). -/
theorem fullLevelChanged_out (s : State) :
    s.fullLevelChanged = { s with sign := s.fullLevelChanged.sign } ∧ s.fullLevelChanged.sign.night = s.sign.night := by
  obtain ⟨-, aimed, -⟩ := aim_kept s.sign s.sign.target s.fullLevel
  obtain ⟨-, set, -⟩ := alarmLevel_kept (s.sign.aim s.sign.target s.fullLevel) s.fullLevel
  unfold State.fullLevelChanged
  dsimp only
  split
  · exact ⟨rfl, set.trans aimed⟩
  · exact ⟨rfl, aimed⟩

theorem aim_goals {x : Sign} (idle : x.test = none) (t : Target) (full : Nat) :
    (x.aim t full).lamps.vacant.goal = (if t.group = some .vacant then full else 0)
      ∧ (x.aim t full).lamps.hired.goal = (if t.group = some .hired then full else 0)
      ∧ (x.aim t full).lamps.offDuty.goal = (if t.group = some .offDuty then full else 0)
      ∧ (x.aim t full).lamps.share.goal = (if t.share then full else 0) := by
  simp [Sign.aim, idle, Lamps.aim, goalOf]

/-- A new full level is the goal of the front lamps in the target, while no test runs (R136). -/
theorem fullLevelChanged_goals {s : State} (idle : s.sign.test = none) :
    s.fullLevelChanged.sign.lamps.vacant.goal = (if s.sign.target.group = some .vacant then s.fullLevel else 0)
      ∧ s.fullLevelChanged.sign.lamps.hired.goal = (if s.sign.target.group = some .hired then s.fullLevel else 0)
      ∧ s.fullLevelChanged.sign.lamps.offDuty.goal = (if s.sign.target.group = some .offDuty then s.fullLevel else 0)
      ∧ s.fullLevelChanged.sign.lamps.share.goal = (if s.sign.target.share then s.fullLevel else 0) := by
  have goals := aim_goals idle s.sign.target s.fullLevel
  obtain ⟨vacant, hired, offDuty, share⟩ := alarmLevel_front (s.sign.aim s.sign.target s.fullLevel) s.fullLevel
  unfold State.fullLevelChanged
  dsimp only
  split
  · dsimp only
    rw [vacant, hired, offDuty, share]
    exact goals
  · exact goals

/-! ### The record changed -/

/-- The low mark set from clear tells the Console and Fleet ports (R125). -/
theorem updateLow_notices {s : State} (set : s.updateLow.journal.low = true) (clear : s.journal.low = false) :
    (s.updateLow.port .console).holds .journalLow = true ∧ (s.updateLow.port .fleet).holds .journalLow = true := by
  rw [updateLow_journal] at set
  unfold State.updateLow
  dsimp only at set ⊢
  rw [set, clear]
  exact notifyConsoleFleet_holds _ _

/-- A changed level that sets the low mark from clear tells the Console and Fleet ports (R125). -/
theorem updateLowFrom_notices {s : State} {old : Nat} (set : (s.updateLowFrom old).journal.low = true) (clear : s.journal.low = false) :
    ((s.updateLowFrom old).port .console).holds .journalLow = true ∧ ((s.updateLowFrom old).port .fleet).holds .journalLow = true := by
  unfold State.updateLowFrom at set ⊢
  split
  · rename_i same
    rw [if_pos same, clear] at set
    simp at set
  · rename_i other
    rw [if_neg other] at set
    exact updateLow_notices set clear

/-- What SET_CONFIG, taken, leaves of a state (R60, R61). -/
structure Configured (s : State) (f : ConfigFields) (c : State) : Prop where
  kept : c = { s with
    tariffs := { s.tariffs with config := s.tariffs.config.updated f, configWrite := some 0 }
    odoRem := if changesK s f then 0 else s.odoRem
    journal := { s.journal with
      low := if (s.tariffs.config.updated f).lowWater = s.tariffs.config.lowWater then s.journal.low
        else decide (s.journal.free < (s.tariffs.config.updated f).lowWater) }
    sign := c.sign
    ports := c.ports }
  notices : c.journal.low = true → s.journal.low = false →
    (c.port .console).holds .journalLow = true ∧ (c.port .fleet).holds .journalLow = true
  goals : c.fullLevel ≠ s.fullLevel → s.sign.test = none →
    c.sign.lamps.vacant.goal = (if s.sign.target.group = some .vacant then c.fullLevel else 0)
    ∧ c.sign.lamps.hired.goal = (if s.sign.target.group = some .hired then c.fullLevel else 0)
    ∧ c.sign.lamps.offDuty.goal = (if s.sign.target.group = some .offDuty then c.fullLevel else 0)
    ∧ c.sign.lamps.share.goal = (if s.sign.target.share then c.fullLevel else 0)
  sign : c.fullLevel = s.fullLevel → c.sign = s.sign

/-- The record takes the fields, the low mark stands under its level, and a new full level reaches the sign (R60, R61). -/
theorem configured_out (s : State) (f : ConfigFields) : Configured s f (s.configured f) := by
  obtain ⟨x, hx⟩ : ∃ x : State, x = { s with
      tariffs := { s.tariffs with config := s.tariffs.config.updated f, configWrite := some 0 }
      odoRem := if changesK s f then 0 else s.odoRem } := ⟨_, rfl⟩
  obtain ⟨y, hy⟩ : ∃ y, y = x.updateLowFrom s.tariffs.config.lowWater := ⟨_, rfl⟩
  have yout := updateLowFrom_out x s.tariffs.config.lowWater
  have told : y.journal.low = true → x.journal.low = false →
      (y.port .console).holds .journalLow = true ∧ (y.port .fleet).holds .journalLow = true := by
    rw [hy]
    exact updateLowFrom_notices
  rw [← hy] at yout
  rw [hx] at yout told
  have ysign : y.sign = s.sign := by rw [yout]
  have configured : s.configured f = if y.fullLevel = s.fullLevel then y else y.fullLevelChanged := by
    rw [hy, hx]
    rfl
  rw [configured]
  split
  · rename_i same
    exact ⟨by rw [ysign]; exact yout, told, fun new => absurd same new, fun _ => ysign⟩
  · rename_i new
    obtain ⟨c, hc⟩ : ∃ c, c = y.fullLevelChanged := ⟨_, rfl⟩
    obtain ⟨cout, night⟩ := fullLevelChanged_out y
    have goals := @fullLevelChanged_goals y
    rw [← hc] at cout night goals ⊢
    have level : c.fullLevel = y.fullLevel := by
      unfold State.fullLevel
      rw [night, cout]
    rw [ysign, ← level] at goals
    refine ⟨?_, ?_, fun _ => goals, fun same => absurd (level.symm.trans same) new⟩
    · rw [cout]
      dsimp only
      rw [yout]
    · rw [cout]
      exact told

/-- A configuration write that completes makes the spare copy current (R62, R189). -/
theorem write_current {α : Type} (x : Section α) (v : α) : (x.write v).current = some v := by
  unfold Section.write
  split <;> rfl

/-- A configuration write in flight that completes (R62). -/
theorem configWritten_out {s : State} {n : Nat} (writing : s.tariffs.configWrite = some n) : s.configWritten = { s with
    tariffs := { s.tariffs with
      configSection := s.tariffs.configSection.write s.tariffs.config, configWrite := none, configBehind := false } } := by
  unfold State.configWritten
  rw [writing]

/-- One that fails is made again twice, and given up at the third failure (R62). -/
theorem configWriteFailed_out {s : State} {n : Nat} (writing : s.tariffs.configWrite = some n) : s.configWriteFailed =
    if n < 2 then { s with tariffs := { s.tariffs with configWrite := some (n + 1) } }
    else { s with tariffs := { s.tariffs with configWrite := none, configBehind := true } } := by
  unfold State.configWriteFailed
  rw [writing]

/-! ### The statement -/

/-- Settles O31: SET_CONFIG by the check that decides it and by what its record leaves; the end of the write by its failures so far. -/
theorem configurationIsSetAndWritten : Obligations.ConfigurationIsSetAndWritten := by
  refine ⟨fun tag f sealed s u ready hu => ?_, fun n s run writing => ?_⟩
  · obtain rfl : u = s.sampleSeal sealed := hu
    refine ⟨fun busy => exec_setConfig ready (setConfigOwner_storeBusy ((storeBusy_iff _).2 busy)), fun noActivation noWrite noClear => ?_⟩
    have idle : (s.sampleSeal sealed).storeBusy = false := by simp [State.storeBusy, noActivation, noWrite, noClear]
    refine ⟨fun outside => exec_setConfig ready (setConfigOwner_range idle outside), fun inRange => ⟨fun allowed => ?_,
      fun present differs opened => ?_, fun present differs closed unsealed => ?_⟩⟩
    · obtain ⟨c, hc⟩ : ∃ c, c = (s.sampleSeal sealed).configured f := ⟨_, rfl⟩
      have out := configured_out (s.sampleSeal sealed) f
      rw [← hc] at out
      have work := setConfigOwner_done idle inRange fun change => by
        obtain ⟨present, differs⟩ := (changesK_iff _ f).1 change
        exact allowed present differs
      rw [← hc] at work
      have config : c.tariffs.config = s.tariffs.config.updated f := by rw [out.kept]; rfl
      have odometer : c.odoRem = if hasField f 1 = true ∧ f.k.toNat ≠ s.tariffs.config.k then 0 else s.odoRem := by
        rw [out.kept]
        exact if_congr (changesK_iff _ f) rfl rfl
      have low : c.journal.low = if hasField f 6 = true ∧ f.lowWater.toNat ≠ s.tariffs.config.lowWater
          then decide (s.journal.free < f.lowWater.toNat) else s.journal.low := by
        rw [out.kept]
        exact updated_low _ f _ _
      refine ⟨c.replied .fleet .setConfig tag .ok [], exec_setConfig ready work, congrArg ConfigRecord.k config,
        congrArg ConfigRecord.claimTimeout config, congrArg ConfigRecord.paymentTimeout config, congrArg ConfigRecord.ceiling config,
        (congrArg ConfigRecord.pooling config).trans (updated_pooling inRange _), congrArg ConfigRecord.lowWater config,
        congrArg ConfigRecord.depth config, congrArg ConfigRecord.nightLevel config, ?_, odometer, low, out.notices, out.goals, out.sign,
        rfl, ?_⟩
      · rw [out.kept]
        rfl
      · rw [out.kept]
        rfl
    · exact exec_setConfig ready (setConfigOwner_shiftState idle inRange ((changesK_iff _ f).2 ⟨present, differs⟩) opened)
    · exact exec_setConfig ready (setConfigOwner_sealed idle inRange ((changesK_iff _ f).2 ⟨present, differs⟩) closed unsealed)
  · refine ⟨⟨s.configWritten, congrArg Host.Outcome.next (whenRunning_eq run _), ?_⟩, fun again => ?_, fun last => ?_⟩
    · rw [configWritten_out writing]
      exact ⟨write_current _ _, rfl, rfl, rfl, rfl⟩
    · refine congrArg Host.Outcome.next ((whenRunning_eq run _).trans ?_)
      rw [configWriteFailed_out writing, if_pos again]
    · refine congrArg Host.Outcome.next ((whenRunning_eq run _).trans ?_)
      rw [configWriteFailed_out writing, if_neg (Nat.not_lt.2 last)]

end Sys2Proof.Machine
end

section
/-! The start-up without retention: the journal rebuilt from its slots, the RETENTION_LOST record, and everything else afresh (R96, R111,
R119, R131, R186 to R191), with its statement. -/

namespace Sys2Proof.Machine

/-! ### The whole records of the slots -/

/-- The sequence numbers of the whole records, in slot order. -/
def wholeNumbers (st : JournalStore) : List Nat := st.filterMap (fun x => x.2.seq?)

theorem mem_wholeNumbers {st : JournalStore} {n : Nat} : n ∈ wholeNumbers st ↔ ∃ i r, (i, SlotContent.whole n r) ∈ st := by
  unfold wholeNumbers
  rw [List.mem_filterMap]
  constructor
  · rintro ⟨⟨i, c⟩, mem, seq⟩
    cases c with
    | whole m r =>
      obtain rfl : m = n := Option.some.inj seq
      exact ⟨i, r, mem⟩
    | damaged => cases seq
  · rintro ⟨i, r, mem⟩
    exact ⟨_, mem, rfl⟩

theorem wholeNumbers_nil {st : JournalStore} (noRecord : ∀ i n r, (i, SlotContent.whole n r) ∉ st) : wholeNumbers st = [] := by
  refine List.eq_nil_iff_forall_not_mem.2 fun n mem => ?_
  obtain ⟨i, r, found⟩ := mem_wholeNumbers.1 mem
  exact noRecord i n r found

theorem wholeNumbers_max {st : JournalStore} {i n : Nat} {r : JournalRecord} (mem : (i, SlotContent.whole n r) ∈ st)
    (greatest : ∀ i' n' r', (i', SlotContent.whole n' r') ∈ st → n' ≤ n) : (wholeNumbers st).max? = some n := by
  refine List.max?_eq_some_iff.2 ⟨mem_wholeNumbers.2 ⟨i, r, mem⟩, fun m hm => ?_⟩
  obtain ⟨i', r', found⟩ := mem_wholeNumbers.1 hm
  exact greatest i' m r' found

theorem wholeNumbers_min {st : JournalStore} {i n : Nat} {r : JournalRecord} (mem : (i, SlotContent.whole n r) ∈ st)
    (smallest : ∀ i' n' r', (i', SlotContent.whole n' r') ∈ st → n ≤ n') : (wholeNumbers st).min? = some n := by
  refine List.min?_eq_some_iff.2 ⟨mem_wholeNumbers.2 ⟨i, r, mem⟩, fun m hm => ?_⟩
  obtain ⟨i', r', found⟩ := mem_wholeNumbers.1 hm
  exact smallest i' m r' found

/-- The newest record carries the greatest number (R119). -/
theorem newestWhole_max (st : JournalStore) : (newestWhole st).map Prod.snd = (wholeNumbers st).max? := by
  induction st with
  | nil => rfl
  | cons x rest ih =>
    obtain ⟨i, c⟩ := x
    cases c with
    | damaged => exact ih
    | whole n r =>
      show _ = (n :: wholeNumbers rest).max?
      rw [List.max?_cons, ← ih]
      rw [newestWhole]
      cases newestWhole rest with
      | none => rfl
      | some newest =>
        obtain ⟨i', n'⟩ := newest
        dsimp only
        split <;> simp <;> omega

/-- The oldest record carries the smallest number (R119). -/
theorem oldestWhole_min (st : JournalStore) : oldestWhole st = (wholeNumbers st).min? := by
  induction st with
  | nil => rfl
  | cons x rest ih =>
    obtain ⟨i, c⟩ := x
    cases c with
    | damaged => exact ih
    | whole n r =>
      show _ = (n :: wholeNumbers rest).min?
      rw [List.min?_cons, ← ih]
      rw [oldestWhole]
      cases oldestWhole rest <;> rfl

/-- The page of a damaged slot (R119). -/
theorem mem_damagedPages {st : JournalStore} {p : Nat} :
    p ∈ damagedPages st ↔ p < 256 ∧ ∃ i, (i, SlotContent.damaged) ∈ st ∧ i / 16 = p := by
  unfold damagedPages
  rw [List.mem_filter, List.mem_range, List.any_eq_true]
  refine and_congr Iff.rfl ?_
  simp only [Bool.and_eq_true, beq_iff_eq, Prod.exists]
  constructor
  · rintro ⟨i, c, mem, page, rfl⟩
    exact ⟨i, mem, page⟩
  · rintro ⟨i, mem, page⟩
    exact ⟨i, _, mem, page, rfl⟩

/-! ### The bookkeeping rebuilt -/

/-- With no record whole the numbers start afresh (R119). -/
theorem rebuilt_noRecord {st : JournalStore} (draws : Nat) (noRecord : wholeNumbers st = []) :
    (rebuiltJournal st draws).nextSeq = 1 ∧ (rebuiltJournal st draws).acked = 0 := by
  have newest := newestWhole_max st
  have oldest := oldestWhole_min st
  rw [noRecord] at newest oldest
  unfold rebuiltJournal
  dsimp only
  rw [oldest, Option.map_eq_none_iff.1 newest]
  exact ⟨rfl, rfl⟩

/-- The next number is one beyond the greatest found (R119). -/
theorem rebuilt_nextSeq {st : JournalStore} {n : Nat} (draws : Nat) (greatest : (wholeNumbers st).max? = some n) (last : n < 4294967295) :
    (rebuiltJournal st draws).nextSeq = n + 1 := by
  obtain ⟨⟨i, m⟩, newest, rfl⟩ := Option.map_eq_some_iff.1 ((newestWhole_max st).trans greatest)
  unfold rebuiltJournal
  dsimp only
  rw [newest]
  exact if_pos last

/-- The acknowledged number is one below the smallest found (R119). -/
theorem rebuilt_acked {st : JournalStore} {n : Nat} (draws : Nat) (smallest : (wholeNumbers st).min? = some n) :
    (rebuiltJournal st draws).acked = n - 1 := by
  unfold rebuiltJournal
  dsimp only
  rw [oldestWhole_min, smallest]

/-! ### The slots as the loss left them -/

/-- With no filing in flight every slot reads as it was (R119). -/
theorem storeAfterLoss_idle {j : Journal} (r : SlotReading) (idle : j.inFlight = none ∨ j.queue = []) : storeAfterLoss j r = j.store := by
  unfold storeAfterLoss
  split
  · rename_i flight queued
    rcases idle with noFlight | nothing
    · exact absurd (flight.symm.trans noFlight) (by simp)
    · exact absurd (queued.symm.trans nothing) (by simp)
  · rfl

/-- What the slot being programmed reads as at the start-up, by the operand (R119). -/
def slotFound (r : SlotReading) (before : Option SlotContent) (seq : Nat) (x : JournalRecord) : Option SlotContent :=
  match r with
  | .untouched => before
  | .empty => none
  | .whole => some (.whole seq x)
  | .damaged => some .damaged

/-- With a filing in flight its slot reads as the start-up finds it, and every other slot as it was (R119). -/
theorem storeAfterLoss_flight {j : Journal} {f : Filing} {x : JournalRecord} {rest : List JournalRecord} (r : SlotReading)
    (flight : j.inFlight = some f) (queued : j.queue = x :: rest) :
    slotRead (storeAfterLoss j r) f.place.index = slotFound r (slotRead j.store f.place.index) f.seq x
      ∧ ∀ i, i ≠ f.place.index → slotRead (storeAfterLoss j r) i = slotRead j.store i := by
  have erased := slotRead_filter j.store (fun i => i != f.place.index)
  unfold storeAfterLoss
  rw [flight, queued]
  cases r with
  | untouched => exact ⟨rfl, fun _ _ => rfl⟩
  | empty => exact ⟨(erased f.place.index).trans (if_neg (by simp)), fun i other => (erased i).trans (if_pos (bne_iff_ne.2 other))⟩
  | whole => exact ⟨slotWrite_same _ _ _, fun i other => slotWrite_other _ _ _ i other⟩
  | damaged => exact ⟨slotWrite_same _ _ _, fun i other => slotWrite_other _ _ _ i other⟩

/-- Outside a recovery no page was being erased (R131). -/
theorem eraseLost_still {s : State} (erased : List Nat) (noRecovery : s.partClear ≠ .recovering) : s.eraseLost erased = s :=
  if_neg noRecovery

/-! ### The RETENTION_LOST record -/

theorem updateLow_out (s : State) : s.updateLow = { s with
    journal := { s.journal with low := decide (s.journal.free < s.tariffs.config.lowWater) }
    ports := s.updateLow.ports } := by
  conv_lhs => rw [updateLow_only, updateLow_journal]

/-- What the hand-over of the RETENTION_LOST record leaves of a state with nothing to file (R119, R120, R125). -/
structure LossRecorded (x y : State) : Prop where
  kept : y = { x with
    journal := { x.journal with queue := y.journal.queue, low := y.journal.low, inFlight := y.journal.inFlight }
    ports := y.ports }
  low : y.journal.low = decide (y.journal.free < x.tariffs.config.lowWater)
  taken : 1 ≤ x.journal.free → x.journal.slotFree x.journal.writer = true →
    y.journal.queue = [x.formRecord .retentionLost] ∧ y.journal.inFlight = some ⟨x.journal.nextSeq, x.journal.writer⟩
  full : x.journal.free < 1 → y.journal.queue = [] ∧ y.journal.inFlight = none

/-- A free slot is there only while writing is open (R118). -/
theorem writingOpen_of_free {j : Journal} (free : 1 ≤ j.free) : j.writingOpen = true := by
  unfold Journal.free at free
  split at free
  · assumption
  · omega

/-- A record other than HIRE and SHIFT that finds no slot is dropped (R124). -/
theorem noSlot_dropped (s : State) {r : JournalRecord} (rest : List JournalRecord) (unreserved : r.body.reserved = false) :
    s.noSlot r rest = ({ s with journal := { s.journal with queue := rest } } : State).updateLow := by
  unfold State.noSlot
  dsimp only
  rw [unreserved]
  rfl

/-- A record offered to an empty queue and accepted joins it, the low mark worked out with it (R120, R125). -/
theorem handOver_accepted {x : State} {b : RecordBody} (nothing : x.journal.queue = []) (accepted : x.acceptsRecord b = true) :
    ∃ w, w = x.updateLow.handOver b ∧ w = { x with
        journal := { x.journal with queue := [x.formRecord b], low := w.journal.low }
        ports := w.ports }
      ∧ w.journal.low = decide (w.journal.free < x.tariffs.config.lowWater) := by
  obtain ⟨z, hz⟩ : ∃ z, z = x.updateLow := ⟨_, rfl⟩
  have zout := updateLow_out x
  rw [← hz] at zout ⊢
  have zaccepts : z.acceptsRecord b = true := by
    rw [zout]
    exact accepted
  have handed : z.handOver b = ({ z with journal := { z.journal with queue := z.journal.queue ++ [z.formRecord b] } } : State).updateLow :=
    if_pos zaccepts
  obtain ⟨w, hw⟩ : ∃ w, w = z.handOver b := ⟨_, rfl⟩
  have wout := updateLow_out { z with journal := { z.journal with queue := z.journal.queue ++ [z.formRecord b] } }
  rw [← handed, ← hw, zout] at wout
  refine ⟨w, hw, ?_, ?_⟩
  · rw [wout]
    simp [nothing, State.formRecord]
  · rw [wout]
    rfl

/-- A record offered while no slot is free is not taken (R120). -/
theorem handOver_refused {x : State} {b : RecordBody} (refused : x.acceptsRecord b = false) : x.updateLow.handOver b = x.updateLow := by
  have out := updateLow_out x
  have zrefuses : ¬x.updateLow.acceptsRecord b = true := by
    rw [out]
    exact Bool.eq_false_iff.1 refused
  exact if_neg zrefuses

/-- A record other than HIRE and SHIFT, alone in the queue: filed at the writer's slot when that is free and writing open, and dropped
otherwise (R121, R124). -/
theorem fileOn_alone {w : State} {r : JournalRecord} (queued : w.journal.queue = [r]) (noFlight : w.journal.inFlight = none)
    (unreserved : r.body.reserved = false) :
    ((w.journal.writingOpen && w.journal.slotFree w.journal.writer) = true →
        w.fileOn = { w with journal := { w.journal with inFlight := some ⟨w.journal.nextSeq, w.journal.writer⟩ } })
      ∧ ((w.journal.writingOpen && w.journal.slotFree w.journal.writer) = false →
        w.fileOn = ({ w with journal := { w.journal with queue := [] } } : State).updateLow) := by
  refine ⟨fun place => ?_, fun noPlace => ?_⟩
  · obtain ⟨f, out, -, -, begun⟩ := fileOn_steady w (.inr ((Bool.and_eq_true _ _).to_iff.1 place))
    rw [out, begun noFlight (by rw [queued]; simp)]
  · unfold State.fileOn
    rw [beginFiling_noPlace _ w r [] ⟨noFlight, noPlace⟩ queued, noSlot_dropped w [] unreserved]
    exact beginFiling_nothing _ _ (by rw [updateLow_out])

/-- The RETENTION_LOST record is handed over when a slot is free, and filed at the writer's slot when that is free (R119, R120, R124). -/
theorem retentionLost_recorded {x : State} (nothing : x.journal.queue = []) (noFlight : x.journal.inFlight = none)
    (noRecovery : x.partClear = .idle) : LossRecorded x (x.updateLow.handOver .retentionLost).fileOn := by
  by_cases free : 1 ≤ x.journal.free
  · have accepted : x.acceptsRecord .retentionLost = true := by simp [State.acceptsRecord, free, noRecovery]
    obtain ⟨w, hw, wout, wlow⟩ := handOver_accepted nothing accepted
    have wjournal : w.journal = { x.journal with queue := [x.formRecord .retentionLost], low := w.journal.low } := by rw [wout]
    obtain ⟨filed, dropped⟩ := fileOn_alone (w := w) (r := x.formRecord .retentionLost) (by rw [wjournal]) (by rw [wjournal]; exact noFlight) rfl
    have same : (w.journal.writingOpen && w.journal.slotFree w.journal.writer)
        = (x.journal.writingOpen && x.journal.slotFree x.journal.writer) := by
      rw [wjournal]
      rfl
    rw [same] at filed dropped
    rw [← hw]
    cases place : x.journal.writingOpen && x.journal.slotFree x.journal.writer with
    | true =>
      rw [filed place]
      refine ⟨?_, wlow, fun _ _ => ⟨by rw [wjournal], by rw [wjournal]⟩, fun full => absurd free (by omega)⟩
      rw [wout]
    | false =>
      have out := updateLow_out { w with journal := { w.journal with queue := [] } }
      rw [← dropped place] at out
      refine ⟨?_, ?_, fun _ slotFree => ?_, fun full => absurd free (by omega)⟩
      · rw [out, wout]
      · rw [out, wout]
        rfl
      · rw [writingOpen_of_free free, slotFree] at place
        cases place
  · have refused : x.acceptsRecord .retentionLost = false := by simp [State.acceptsRecord, RecordBody.reserved, free]
    have out := updateLow_out x
    have stays : x.updateLow.fileOn = x.updateLow := beginFiling_nothing _ _ (by rw [out]; exact nothing)
    rw [handOver_refused refused, stays]
    refine ⟨?_, ?_, fun enough => absurd enough free, fun _ => ?_⟩
    · rw [out]
    · rw [out]
      rfl
    · rw [out]
      exact ⟨nothing, noFlight⟩

/-! ### The start-up -/

/-- Every retained item at the value its rule gives, before the RETENTION_LOST record is handed over (R191, step 4). -/
def State.forgotten (s : State) (u : StartUp) : State :=
  { s with
    pins := u.lines
    tariffs := s.tariffs.loaded u
    partClear := .idle
    timeBase := 0
    clock := ClockTime.first
    clockStatus := .unset
    hires := ⟨Hire.cleared, Hire.cleared, Hire.cleared⟩
    nextHire := 1
    vacantRem := 0
    odoRem := 0
    shift := (s.shift.storeLoaded u).lost u
    journal := rebuiltJournal (storeAfterLoss (s.eraseLost u.erased).journal u.slot) s.draws
    draws := drawsAfterRebuild (storeAfterLoss (s.eraseLost u.erased).journal u.slot) s.draws
    alarm := { s.alarm with state := .quiet, log := [] }
    sign := { s.sign with override := .auto } }

/-- A start-up without retention: the items forgotten, the loss recorded, working memory (R191). -/
theorem startUp_forgotten (s : State) (u : StartUp) :
    s.startUp false u = (((s.forgotten u).updateLow).handOver .retentionLost).fileOn.workingMemory := by
  obtain ⟨j, erased, -⟩ := eraseLost_out s u.erased
  unfold State.startUp State.loseRetained State.forgotten
  dsimp only
  rw [if_neg Bool.false_ne_true, erased s rfl rfl,
    erased { s with pins := u.lines, tariffs := s.tariffs.loaded u, shift := s.shift.storeLoaded u } rfl rfl]

/-- A power-on that finds the mark or the check word missing or disagreeing (R188, R191). -/
theorem exec_powerOn_lost {u : StartUp} {s : State} (lost : s.closedMark = false ∨ s.checkWord = false ∨ u.retentionGood = false) :
    exec (.powerOn u) s = .next (s.startUp false u) := by
  have found : s.intactAt u = false := by
    unfold State.intactAt
    rcases lost with h | h | h <;> simp [h]
  show execPowerOn u s = _
  unfold execPowerOn
  rw [found]

/-- What a start-up without retention leaves (R191). -/
theorem startUp_lost (s : State) (u : StartUp) : ∃ (t y : State), t = s.startUp false u ∧ LossRecorded (s.forgotten u) y ∧ t.journal = y.journal
    ∧ t = { s.forgotten u with
      journal := t.journal
      sign := t.sign
      alarm := ⟨.quiet, [], true, 0, 0⟩
      ports := Ports.powerOn false
      indicators := 0
      intercom := Intercom.powerOn u.lines (s.tariffs.loaded u).config.depth .off
      closedMark := false
      checkWord := false
      power := .running }
    ∧ t.sign.override = .auto := by
  have recorded := retentionLost_recorded (x := s.forgotten u) rfl rfl rfl
  obtain ⟨y, hy⟩ : ∃ y, y = (((s.forgotten u).updateLow).handOver .retentionLost).fileOn := ⟨_, rfl⟩
  rw [← hy] at recorded
  obtain ⟨x, out, override, -, -⟩ := workingMemory_out y
  refine ⟨y.workingMemory, y, by rw [startUp_forgotten, hy], recorded, by rw [out], ?_, ?_⟩
  · rw [out, recorded.kept]
    rfl
  · rw [out]
    refine override.trans ?_
    rw [recorded.kept]
    rfl

/-- The totalizers are those of their section, or 0 and LOST (R111). -/
theorem lost_totals (x : ShiftAccounting) (u : StartUp) : ((x.lost u).totals, (x.lost u).totalsStatus)
    = (match (x.lost u).totalsSection.load u.totalsGood with
      | some y => (y, .ok)
      | none => (⟨0, 0, 0, 0, 0⟩, .lost)) := by
  unfold ShiftAccounting.lost
  dsimp only
  cases x.totalsSection.load u.totalsGood <;> rfl

/-! ### The statement -/

/-- Settles O54: the items forgotten, by their values; the journal rebuilt, by its whole and damaged slots; the start-up's journal, by the
RETENTION_LOST record and by what the loss left in each slot. -/
theorem startUpWithoutRetentionStartsAfresh : Obligations.StartUpWithoutRetentionStartsAfresh := by
  refine ⟨fun u s t lost ht => ?_, fun st draws => ⟨_, rfl, rfl, rfl, rfl, rfl, fun _ => mem_damagedPages, rfl,
      fun noRecord => rebuilt_noRecord draws (wholeNumbers_nil noRecord),
      fun _ _ _ mem last greatest => rebuilt_nextSeq draws (wholeNumbers_max mem greatest) last,
      fun _ _ _ mem smallest => rebuilt_acked draws (wholeNumbers_min mem smallest)⟩,
    fun u s t st j ht hst hj => ⟨?_, fun noRecovery idle => ?_, fun f r rest noRecovery flight queued _ => ?_,
      fun i recovering noFlight => ?_⟩⟩
  · obtain ⟨t', y, ht', -, -, out, override⟩ := startUp_lost s u
    obtain rfl : t' = t := ht'.trans ht.symm
    refine ⟨by rw [ht]; exact exec_powerOn_lost lost, ?_⟩
    have totals := lost_totals (s.shift.storeLoaded u) u
    rw [out]
    exact ⟨fun sl => by cases sl <;> rfl, rfl, rfl, rfl, rfl, rfl, rfl, rfl, rfl, rfl, rfl, rfl, rfl, rfl, totals, rfl, override, rfl, rfl,
      rfl, rfl, rfl, fun p => by cases p <;> rfl⟩
  · obtain ⟨t', y, ht', recorded, tjournal, out, -⟩ := startUp_lost s u
    obtain rfl : t' = t := ht'.trans ht.symm
    obtain rfl : j = (s.forgotten u).journal := by rw [hj, hst]; rfl
    have config : t'.tariffs.config = (s.forgotten u).tariffs.config := by rw [out]
    rw [config, tjournal, hst]
    refine ⟨?_, ?_, ?_, ?_, ?_, ?_, ?_, recorded.low, recorded.taken, recorded.full⟩ <;> rw [recorded.kept] <;> rfl
  · rw [hst, eraseLost_still _ noRecovery]
    exact storeAfterLoss_idle _ idle
  · rw [hst, eraseLost_still _ noRecovery]
    obtain ⟨found, others⟩ := storeAfterLoss_flight u.slot flight queued
    refine ⟨found.trans ?_, others⟩
    cases u.slot <;> rfl
  · obtain ⟨k, erased, kept, -, reads, -⟩ := eraseLost_out s u.erased
    rw [hst, erased s rfl rfl, storeAfterLoss_idle _ (.inl (by rw [kept]; exact noFlight))]
    exact reads recovering i

end Sys2Proof.Machine
end

section
/-! The clock (R187): its second and the calendar it carries. -/

namespace Sys2Proof.Machine

/-! ### Valid times -/

theorem clock_valid_iff (t : ClockTime) : t.valid = true ↔ 2000 ≤ t.year ∧ t.year ≤ 2099 ∧ 1 ≤ t.month ∧ t.month ≤ 12 ∧ 1 ≤ t.day
    ∧ t.day ≤ daysInMonth t.year t.month ∧ t.hour ≤ 23 ∧ t.minute ≤ 59 ∧ t.second ≤ 59 ∧ t.weekday = (t.dayNumber + 5) % 7 + 1 := by
  simp [ClockTime.valid, and_assoc]

theorem first_valid : ClockTime.first.valid = true := by decide

theorem secondOfDay_lt {t : ClockTime} (valid : t.valid = true) : t.secondOfDay < 86400 := by
  obtain ⟨-, -, -, -, -, -, hour, minute, second, -⟩ := (clock_valid_iff t).1 valid
  unfold ClockTime.secondOfDay
  omega

theorem atSecond_secondOfDay (t : ClockTime) (n : Nat) : (t.atSecond n).secondOfDay = n := by
  unfold ClockTime.atSecond ClockTime.secondOfDay
  dsimp only
  omega

/-- Another second of the same day is a valid time of the same date. -/
theorem atSecond_valid {t : ClockTime} {n : Nat} (valid : t.valid = true) (n_lt : n < 86400) : (t.atSecond n).valid = true := by
  obtain ⟨y1, y2, m1, m2, d1, d2, -, -, -, w⟩ := (clock_valid_iff t).1 valid
  refine (clock_valid_iff _).2 ⟨y1, y2, m1, m2, d1, d2, ?_, ?_, ?_, w⟩ <;> (unfold ClockTime.atSecond; dsimp only; omega)

/-! ### The next day -/

theorem daysInMonth_pos {y m : Nat} (one : 1 ≤ m) (twelve : m ≤ 12) : 1 ≤ daysInMonth y m := by
  interval_cases m <;> simp only [daysInMonth] <;> first | decide | (split <;> decide)

theorem daysInMonth_december (y : Nat) : daysInMonth y 12 = 31 := rfl

/-- The days before December's end make the year up. -/
theorem daysBeforeMonth_december (y : Nat) : daysBeforeMonth y 12 + 31 = if y % 4 = 0 then 366 else 365 := by
  simp only [daysBeforeMonth, daysInMonth, isLeap, beq_iff_eq]
  split <;> rfl

theorem daysBeforeYear_succ {y : Nat} (from2000 : 2000 ≤ y) :
    daysBeforeYear (y + 1) = daysBeforeYear y + if y % 4 = 0 then 366 else 365 := by
  unfold daysBeforeYear
  split <;> omega

/-- The last day of the clock's range. -/
def ClockTime.lastDay (t : ClockTime) : Prop := t.year = 2099 ∧ t.month = 12 ∧ t.day = 31

theorem nextDay_last {t : ClockTime} (last : t.lastDay) :
    t.nextDay = { t with day := 1, month := 1, year := 2000, weekday := 6 } := by
  obtain ⟨year, month, day⟩ := last
  simp [ClockTime.nextDay, year, month, day, daysInMonth]

/-- A day on within the range is a date one day later, its weekday the next one. -/
theorem nextDay_within {t : ClockTime} (valid : t.valid = true) (within : ¬t.lastDay) :
    2000 ≤ t.nextDay.year ∧ t.nextDay.year ≤ 2099 ∧ 1 ≤ t.nextDay.month ∧ t.nextDay.month ≤ 12 ∧ 1 ≤ t.nextDay.day
      ∧ t.nextDay.day ≤ daysInMonth t.nextDay.year t.nextDay.month ∧ t.nextDay.weekday = t.weekday % 7 + 1
      ∧ t.nextDay.dayNumber = t.dayNumber + 1 := by
  obtain ⟨y1, y2, m1, m2, d1, d2, -, -, -, -⟩ := (clock_valid_iff t).1 valid
  unfold ClockTime.nextDay
  split
  · rename_i inMonth
    refine ⟨y1, y2, m1, m2, Nat.succ_pos _, inMonth, rfl, ?_⟩
    unfold ClockTime.dayNumber
    dsimp only
    omega
  · rename_i monthEnd
    split
    · rename_i inYear
      refine ⟨y1, y2, Nat.succ_pos _, inYear, Nat.le_refl _, daysInMonth_pos (Nat.succ_pos _) inYear, rfl, ?_⟩
      unfold ClockTime.dayNumber
      dsimp only [daysBeforeMonth]
      omega
    · rename_i yearEnd
      have december : t.month = 12 := by omega
      have thirtyOne : t.day = 31 := by
        rw [december, daysInMonth_december] at d2 monthEnd
        omega
      rw [if_pos (by unfold ClockTime.lastDay at within; omega)]
      have january_le : 1 ≤ 12 := by decide
      refine ⟨Nat.le_succ_of_le y1, by unfold ClockTime.lastDay at within; dsimp only; omega, Nat.le_refl _, january_le, Nat.le_refl _,
        daysInMonth_pos (Nat.le_refl _) january_le, rfl, ?_⟩
      have january : daysBeforeMonth (t.year + 1) 1 = 0 := rfl
      have whole := daysBeforeMonth_december t.year
      unfold ClockTime.dayNumber
      dsimp only
      rw [daysBeforeYear_succ y1, january, december, thirtyOne, ← whole]
      omega

theorem nextDay_time (t : ClockTime) : t.nextDay.hour = t.hour ∧ t.nextDay.minute = t.minute ∧ t.nextDay.second = t.second := by
  unfold ClockTime.nextDay
  split
  · exact ⟨rfl, rfl, rfl⟩
  · split
    · exact ⟨rfl, rfl, rfl⟩
    · split <;> exact ⟨rfl, rfl, rfl⟩

theorem nextDay_valid {t : ClockTime} (valid : t.valid = true) : t.nextDay.valid = true := by
  obtain ⟨-, -, -, -, -, -, h, m, s, w⟩ := (clock_valid_iff t).1 valid
  by_cases last : t.lastDay
  · rw [nextDay_last last]
    exact (clock_valid_iff _).2 ⟨Nat.le_refl 2000, (by decide : 2000 ≤ 2099), Nat.le_refl 1, (by decide : 1 ≤ 12), Nat.le_refl 1,
      (by decide : 1 ≤ 31), h, m, s, (by decide : 6 = (ClockTime.first.dayNumber + 5) % 7 + 1)⟩
  · obtain ⟨y1, y2, m1, m2, d1, d2, weekday, number⟩ := nextDay_within valid last
    obtain ⟨hour, minute, second⟩ := nextDay_time t
    refine (clock_valid_iff _).2 ⟨y1, y2, m1, m2, d1, d2, hour ▸ h, minute ▸ m, second ▸ s, ?_⟩
    rw [weekday, number]
    omega

/-! ### The second -/

/-- A second on: the next second of the day, or the first of the next day. -/
theorem plus_one {t : ClockTime} (valid : t.valid = true) :
    t.plus 1 = if t.secondOfDay = 86399 then t.nextDay.atSecond 0 else t.atSecond (t.secondOfDay + 1) := by
  have lt := secondOfDay_lt valid
  unfold ClockTime.plus
  split
  · rename_i midnight
    rw [midnight]
    rfl
  · rename_i inDay
    rw [Nat.div_eq_of_lt (by omega), Nat.mod_eq_of_lt (by omega)]
    rfl

theorem secondOn_valid {s : State} (valid : s.clock.valid = true) : s.secondOn.clock.valid = true := by
  show (s.clock.plus 1).valid = true
  have lt := secondOfDay_lt valid
  rw [plus_one valid]
  split
  · exact atSecond_valid (nextDay_valid valid) (by decide)
  · exact atSecond_valid valid (by omega)

theorem isLast_iff (t : ClockTime) : t.isLast = true ↔ t.lastDay ∧ t.secondOfDay = 86399 := by
  simp [ClockTime.isLast, ClockTime.lastDay, and_assoc]

/-- The second after a time that is not the last is one second later. -/
theorem plus_one_toSeconds {t : ClockTime} (valid : t.valid = true) (notLast : t.isLast = false) :
    (t.plus 1).toSeconds = t.toSeconds + 1 := by
  have number : ∀ (x : ClockTime) (n : Nat), (x.atSecond n).dayNumber = x.dayNumber := fun _ _ => rfl
  rw [plus_one valid]
  split
  · rename_i midnight
    have within : ¬t.lastDay := fun last => by simp [(isLast_iff t).2 ⟨last, midnight⟩] at notLast
    obtain ⟨-, -, -, -, -, -, -, later⟩ := nextDay_within valid within
    unfold ClockTime.toSeconds
    rw [atSecond_secondOfDay, number, later, midnight]
    omega
  · unfold ClockTime.toSeconds
    rw [atSecond_secondOfDay, number, Nat.add_assoc]

/-- The second after the last is the first of the range. -/
theorem plus_one_last {t : ClockTime} (valid : t.valid = true) (last : t.isLast = true) : t.plus 1 = ClockTime.first := by
  obtain ⟨day, midnight⟩ := (isLast_iff t).1 last
  rw [plus_one valid, if_pos midnight, nextDay_last day]
  rfl

end Sys2Proof.Machine
end

section
/-! The stored forms (R51, R118, R165, R167, R182, R187): what every operation keeps of them, one lemma per operation in the order of the
model, and from these that every step keeps each. `Filed` does not serve here: it lets the ports change in any way, and the enable masks
may not. -/

namespace Sys2Proof.Machine

/-- The tariff sets' places, the slots' order, the enable masks, the clock and the alarm log of a state have each the form they must have
if they had it in the state it came from. -/
structure Keeps (r s : State) : Prop where
  places : PlacesLaw r.tariffs → PlacesLaw s.tariffs
  store : StoreLaw r.journal → StoreLaw s.journal
  masks : MaskLaw r.ports → MaskLaw s.ports
  clock : r.clock.valid = true → s.clock.valid = true
  alarm : AlarmLaw r.alarm → AlarmLaw s.alarm

/-- What the five forms are read from. -/
def State.formed (s : State) : TariffStore × JournalStore × Ports × ClockTime × Alarm :=
  (s.tariffs, s.journal.store, s.ports, s.clock, s.alarm)

/-- Every place of a tariff set is put with its number unchanged (R51, R64). -/
theorem applyBlock_shaped {t u : TariffSet} {b : Block} (h : applyBlock t b = .ok u) (shaped : t.shaped) : u.shaped := by
  have put : ∀ {v : TariffSet} {c : Prop} [Decidable c], v.shaped → (if c then Except.ok v else Except.error Code.noSuch) = .ok u → u.shaped := by
    intro v c _ hv hu
    split at hu
    · injection hu with hu
      exact hu ▸ hv
    · cases hu
  obtain ⟨ht, hc, he⟩ := shaped
  have tariff : ∀ id x, (t.putTariff id x).shaped := fun _ _ => ⟨List.length_set.trans ht, hc, he⟩
  have entry : ∀ i x, (t.putEntry i x).shaped := fun _ _ => ⟨ht, List.length_set.trans hc, he⟩
  have extra : ∀ id x, (t.putExtra id x).shaped := fun _ _ => ⟨ht, hc, List.length_set.trans he⟩
  cases b with
  | tariff id x => injection h with h; exact h ▸ tariff _ _
  | calendar i x => injection h with h; exact h ▸ entry _ _
  | extra id x => injection h with h; exact h ▸ extra _ _
  | withdrawTariff id => exact put (tariff _ _) h
  | withdrawCalendar i => exact put (entry _ _) h
  | withdrawExtra id => exact put (extra _ _) h
  | clearStaging => injection h with h; exact h ▸ blank_shaped

/-- A section written holds shaped sets if it did and the set written is one (R189). -/
theorem write_shaped {x : Section TariffSet} {v : TariffSet} (hv : v.shaped) (ha : ∀ t, x.copyA = some t → t.shaped)
    (hb : ∀ t, x.copyB = some t → t.shaped) :
    (∀ t, (x.write v).copyA = some t → t.shaped) ∧ ∀ t, (x.write v).copyB = some t → t.shaped := by
  unfold Section.write
  split
  · exact ⟨fun t ht => Option.some.inj ht ▸ hv, hb⟩
  · exact ⟨ha, fun t ht => Option.some.inj ht ▸ hv⟩

/-- The places stand where the sets do. -/
theorem placesLaw_of_same {x y : TariffStore} (active : y.active = x.active) (staging : y.staging = x.staging)
    (sections : y.tariffSection = x.tariffSection) (activation : y.activation = x.activation) (h : PlacesLaw x) : PlacesLaw y := by
  unfold PlacesLaw
  rw [active, staging, sections, activation]
  exact h

/-- The sets loaded at a start-up have their places (R51, R189). -/
theorem loaded_places {x : TariffStore} (u : StartUp) (h : PlacesLaw x) : PlacesLaw (x.loaded u) := by
  obtain ⟨-, -, writing, copyA, copyB⟩ := h
  obtain ⟨sec, hsec⟩ : ∃ sec, sec = x.tariffSection.afterLoss x.activation u.tariffMarked := ⟨_, rfl⟩
  have copies : (∀ t, sec.copyA = some t → t.shaped) ∧ ∀ t, sec.copyB = some t → t.shaped := by
    rw [hsec]
    unfold Section.afterLoss
    split
    · rename_i v hv
      split
      · exact write_shaped (writing v hv) copyA copyB
      · exact ⟨copyA, copyB⟩
    · exact ⟨copyA, copyB⟩
  have current : ∀ t, sec.current = some t → t.shaped := by
    unfold Section.current
    split
    · exact copies.2
    · exact copies.1
  have active : ((sec.load u.tariffGood).getD TariffSet.blank).shaped := by
    unfold Section.load
    split
    · cases hc : sec.current with
      | none => exact blank_shaped
      | some t => exact current t hc
    · exact blank_shaped
  rw [hsec] at active copies
  exact ⟨active, active, nofun, copies.1, copies.2⟩

/-! ### The alarm log -/

theorem readLine_alarmLaw {x : Alarm} (pressed : Bool) (h : AlarmLaw x) : AlarmLaw (x.readLine pressed) := by
  unfold Alarm.readLine
  split <;> exact h

theorem onNewest_length (f : AlarmEntry → AlarmEntry) (log : List AlarmEntry) : (onNewest f log).length = log.length := by
  induction log using onNewest.induct with
  | case1 => rfl
  | case2 e => rfl
  | case3 e rest notNil ih => simp [onNewest, ih]

/-- A full log loses its oldest entry for the new one (R167). -/
theorem logEntry_length {log : List AlarmEntry} (e : AlarmEntry) (h : log.length ≤ 8) : (logEntry log e).length ≤ 8 := by
  unfold logEntry
  split <;> simp <;> omega

theorem logEntry_ne_nil (log : List AlarmEntry) (e : AlarmEntry) : logEntry log e ≠ [] := by
  simp [logEntry]

namespace Keeps

variable {r s : State}

theorem refl (s : State) : Keeps s s := ⟨id, id, id, id, id⟩

/-- What leaves all that the forms are read from. -/
theorem elsewhere (h : Keeps r s) {t : State} (same : t.formed = s.formed) : Keeps r t := by
  obtain ⟨tariffs, store, ports, clock, alarm⟩ : t.tariffs = s.tariffs ∧ t.journal.store = s.journal.store ∧ t.ports = s.ports
      ∧ t.clock = s.clock ∧ t.alarm = s.alarm := by simpa [State.formed] using same
  refine ⟨tariffs ▸ h.places, ?_, ports ▸ h.masks, clock ▸ h.clock, alarm ▸ h.alarm⟩
  unfold StoreLaw
  rw [store]
  exact h.store

theorem withTariffs (h : Keeps r s) {x : TariffStore} (hx : PlacesLaw s.tariffs → PlacesLaw x) : Keeps r { s with tariffs := x } :=
  ⟨fun a => hx (h.places a), h.store, h.masks, h.clock, h.alarm⟩

theorem withJournal (h : Keeps r s) {x : Journal} (hx : StoreLaw s.journal → StoreLaw x) : Keeps r { s with journal := x } :=
  ⟨h.places, fun a => hx (h.store a), h.masks, h.clock, h.alarm⟩

theorem withPorts (h : Keeps r s) {x : Ports} (hx : MaskLaw s.ports → MaskLaw x) : Keeps r { s with ports := x } :=
  ⟨h.places, h.store, fun a => hx (h.masks a), h.clock, h.alarm⟩

theorem withAlarm (h : Keeps r s) {x : Alarm} (hx : AlarmLaw s.alarm → AlarmLaw x) : Keeps r { s with alarm := x } :=
  ⟨h.places, h.store, h.masks, h.clock, fun a => hx (h.alarm a)⟩

/-- A port changed in anything but its enable mask, or with a mask of its own. -/
theorem putPort (h : Keeps r s) {p : PortId} {x : Port}
    (hx : x.enable = (s.port p).enable ∨ x.enable &&& ~~~(deliveredMask p) = 0) : Keeps r (s.putPort p x) := by
  refine h.withPorts fun law other => ?_
  by_cases same : other = p
  · subst same
    rw [ports_get_put_same]
    rcases hx with hx | hx
    · rw [hx]
      exact law other
    · exact hx
  · rw [ports_get_put_other _ _ same]
    exact law other

theorem notify (h : Keeps r s) (p : PortId) (k : NoticeKind) : Keeps r (s.notify p k) := h.putPort (.inl rfl)

theorem notifyConsoleFleet (h : Keeps r s) (k : NoticeKind) : Keeps r (s.notifyConsoleFleet k) := (h.notify _ _).notify _ _

theorem notifyAll (h : Keeps r s) (k : NoticeKind) : Keeps r (s.notifyAll k) := ((h.notify _ _).notify _ _).notify _ _

theorem answer (h : Keeps r s) (p : PortId) (k tag : Byte) (x : Reply) : Keeps r (s.answer p k tag x) := h.putPort (.inl rfl)

theorem refuse (h : Keeps r s) (p : PortId) (tag : Byte) (c : Code) : Keeps r (s.refuse p tag c) := h.putPort (.inl rfl)

theorem putHire (h : Keeps r s) (sl : SlotId) (x : Hire) : Keeps r (s.putHire sl x) := h.elsewhere rfl

theorem count (h : Keeps r s) (id : CounterId) (n : Nat) : Keeps r (s.count id n) := h.elsewhere rfl

theorem askTotals (h : Keeps r s) : Keeps r s.askTotals := h.elsewhere rfl

theorem withSign (h : Keeps r s) (x : Sign) : Keeps r { s with sign := x } := h.elsewhere rfl

theorem withShift (h : Keeps r s) (x : ShiftAccounting) : Keeps r { s with shift := x } := h.elsewhere rfl

theorem withIntercom (h : Keeps r s) (x : Intercom) : Keeps r { s with intercom := x } := h.elsewhere rfl

/-! ### Changes of stage -/

theorem rederive (h : Keeps r s) : Keeps r s.rederive := by
  rw [rederive_only]
  exact h.withSign _

theorem stageEntered_enable (x : Port) (sl : SlotId) (st : Stage) : (x.stageEntered sl st).enable = x.enable := by
  unfold Port.stageEntered
  split <;> rfl

theorem enterStage (h : Keeps r s) (sl : SlotId) (x : Hire) : Keeps r (s.enterStage sl x) := by
  refine ((h.putHire sl x).withPorts fun law p => ?_).rederive
  rw [ports_get_stageEntered, stageEntered_enable]
  exact law p

theorem fullLevelChanged (h : Keeps r s) : Keeps r s.fullLevelChanged := by
  rw [(fullLevelChanged_out s).1]
  exact h.withSign _

/-! ### The Journal -/

theorem updateLow (h : Keeps r s) : Keeps r s.updateLow := by
  have low : Keeps r { s with journal := { s.journal with low := decide (s.journal.free < s.tariffs.config.lowWater) } } := h.elsewhere rfl
  unfold State.updateLow
  dsimp only
  split
  · exact low.notifyConsoleFleet _
  · exact low

theorem updateLowFrom (h : Keeps r s) (old : Nat) : Keeps r (s.updateLowFrom old) := by
  unfold State.updateLowFrom
  split
  · exact h
  · exact h.updateLow

theorem handOver (h : Keeps r s) (b : RecordBody) : Keeps r (s.handOver b) := by
  unfold State.handOver
  split
  · exact updateLow (h.elsewhere rfl)
  · exact h

theorem beginSummary (h : Keeps r s) : Keeps r s.beginSummary := by
  unfold State.beginSummary
  split
  · exact (h.withShift _).handOver _
  · exact h

theorem completeHire (h : Keeps r s) (sl : SlotId) : Keeps r (s.completeHire sl) :=
  (((h.withShift _).enterStage sl _).askTotals).beginSummary

theorem completeShift (h : Keeps r s) : Keeps r s.completeShift := (((h.withShift _).notifyAll _).rederive).askTotals

theorem complete (h : Keeps r s) (b : RecordBody) : Keeps r (s.complete b) :=
  match b with
  | .hire x => h.completeHire x.slot
  | .shift _ _ _ _ => h.completeShift
  | .lateApproval _ _ _ _ _ _ => h
  | .activation _ => h
  | .retentionLost => h

theorem noSlot (h : Keeps r s) (x : JournalRecord) (rest : List JournalRecord) : Keeps r (s.noSlot x rest) := by
  unfold State.noSlot
  dsimp only
  split
  · refine complete (updateLow ?_) _
    exact h.elsewhere rfl
  · exact updateLow (h.elsewhere rfl)

theorem beginFiling (n : Nat) : ∀ {s : State}, Keeps r s → Keeps r (s.beginFiling n) := by
  induction n with
  | zero => exact fun h => h
  | succ n ih =>
    intro s h
    unfold State.beginFiling
    split
    · split
      · exact h.elsewhere rfl
      · exact ih (h.noSlot _ _)
    · exact h

theorem fileOn (h : Keeps r s) : Keeps r s.fileOn := beginFiling _ h

/-- A programmed slot takes its place in the order (R121). -/
theorem verifyPass (h : Keeps r s) : Keeps r s.verifyPass := by
  unfold State.verifyPass
  split
  · rename_i f x rest flight queued
    have written := h.withJournal (x := { s.journal with store := slotWrite s.journal.store f.place.index (.whole f.seq x) })
      (slotWrite_canon _ _ _)
    refine fileOn (complete (updateLow ?_) _)
    exact written.elsewhere rfl
  · exact h

theorem faultRule (h : Keeps r s) (before : JournalState) : Keeps r (s.faultRule before) := by
  have entered : Keeps r { s with journal := { s.journal with state := .fault .reserve } } := h.elsewhere rfl
  unfold State.faultRule
  dsimp only
  split <;> split
  · exact entered.notifyConsoleFleet _
  · exact entered
  · exact h.notifyConsoleFleet _
  · exact h

theorem verifyFail (h : Keeps r s) : Keeps r s.verifyFail := by
  unfold State.verifyFail
  split
  · rename_i f flight
    exact ((h.withJournal (x := s.journal.retire f) (slotWrite_canon _ _ _)).faultRule _).updateLow.fileOn
  · exact h

/-! ### Settlement and expiry -/

theorem enterFiling (h : Keeps r s) (sl : SlotId) (o : HireOutcome) : Keeps r (s.enterFiling sl o) :=
  ((h.putHire sl _).handOver _).enterStage sl _

theorem settle (h : Keeps r s) (sl : SlotId) : Keeps r (s.settle sl) := by
  unfold State.settle
  split
  · exact h.enterFiling _ _
  · exact h

theorem settleAndFile (h : Keeps r s) (sl : SlotId) : Keeps r (s.settleAndFile sl) := by
  unfold State.settleAndFile
  split
  · exact (h.enterFiling _ _).fileOn
  · exact h

theorem renew (h : Keeps r s) (p : PortId) (sl : SlotId) : Keeps r (s.renew p sl) := by
  unfold State.renew
  split
  · exact h.putHire _ _
  · exact h

theorem lateApproval (h : Keeps r s) (sl : SlotId) (n : Nat) (m : PayMethod) (a t : Nat) (ref : BitVec 96) :
    Keeps r (s.lateApproval sl n m a t ref) := by
  unfold State.lateApproval
  dsimp only
  split
  · exact (((h.count _ _).handOver _).notify _ _).fileOn
  · exact ((h.count _ _).notify _ _).fileOn

theorem expirePayments (h : Keeps r s) (sl : SlotId) : Keeps r (s.expirePayments sl) := by
  unfold State.expirePayments
  dsimp only
  split
  · split
    · exact ((h.putHire _ _).notify _ _).settle _
    · exact (h.putHire _ _).settle _
  · exact h

theorem expireClaim (h : Keeps r s) (sl : SlotId) : Keeps r (s.expireClaim sl) := by
  unfold State.expireClaim
  dsimp only
  split
  · split
    · exact (((h.putHire _ _).notify _ _).notify _ _).settle _
    · exact h
  · exact h

theorem expireSlot (h : Keeps r s) (sl : SlotId) : Keeps r (s.expireSlot sl) := (h.expirePayments sl).expireClaim sl

theorem expireBooking (h : Keeps r s) (sl : SlotId) : Keeps r (s.expireBooking sl) := by
  unfold State.expireBooking
  split
  · exact (h.enterStage _ _).notifyConsoleFleet _
  · exact h

/-! ### The Fare Engine -/

theorem writeHire (h : Keeps r s) (sl : SlotId) (x : Hire) : Keeps r (s.writeHire sl x) := by
  unfold State.writeHire
  split
  · exact h.putHire _ _
  · exact h.enterStage _ _

theorem eachHire (h : Keeps r s) (f : Hire → Hire) : Keeps r (s.eachHire f) := ((h.writeHire _ _).writeHire _ _).writeHire _ _

theorem wheelPulse (h : Keeps r s) : Keeps r s.wheelPulse := by
  have hires := h.eachHire (Hire.pulse s.tariffs.config.k s.hires.running s.tariffs.active)
  unfold State.wheelPulse
  dsimp only
  split
  · exact hires.elsewhere rfl
  · exact hires.elsewhere rfl

theorem fareWork (h : Keeps r s) : Keeps r s.fareWork :=
  ((((((((h.eachHire _).expireBooking _).expireBooking _).expireBooking _).expireSlot _).expireSlot _).expireSlot _)).fileOn

/-! ### A tick -/

theorem readAmbient (h : Keeps r s) (night : Bool) : Keeps r (s.readAmbient night) := by
  unfold State.readAmbient
  split
  · exact h.withSign _
  · split
    · exact (h.withSign _).fullLevelChanged
    · exact h.withSign _

theorem testTick (h : Keeps r s) : Keeps r s.testTick := by
  unfold State.testTick
  split
  · exact h
  · split
    · split
      · exact h.withSign _
      · exact (h.withSign _).notify _ _
    · exact h.withSign _

theorem checkLamps (h : Keeps r s) (b : LampBits) : Keeps r (s.checkLamps b) := by
  have front : Keeps r (if newFrontFault s.sign.lamps (s.sign.lamps.check b)
      then State.notifyConsoleFleet { s with sign := { s.sign with lamps := s.sign.lamps.check b } } .signFault
      else { s with sign := { s.sign with lamps := s.sign.lamps.check b } }) := by
    split
    · exact (h.withSign _).notifyConsoleFleet _
    · exact h.withSign _
  unfold State.checkLamps
  dsimp only
  split
  · exact front.notify _ _
  · exact front

theorem rampTick (h : Keeps r s) : Keeps r s.rampTick := by
  unfold State.rampTick
  split
  · exact h.withSign _
  · exact h

theorem signTick (h : Keeps r s) (fare : Bool) : Keeps r (s.signTick fare) := by
  unfold State.signTick
  dsimp only
  split
  · exact (((h.rampTick.readAmbient _).withSign _).testTick).checkLamps _
  · exact ((h.rampTick.readAmbient _).withSign _).testTick

theorem readTalk (h : Keeps r s) (pressed : Bool) : Keeps r (s.readTalk pressed) := by
  unfold State.readTalk
  dsimp only
  split <;> exact h.withIntercom _

theorem readCall (h : Keeps r s) (pressed : Bool) : Keeps r (s.readCall pressed) := by
  unfold State.readCall
  dsimp only
  split
  · exact (h.withIntercom _).notify _ _
  · exact h.withIntercom _

/-- A press puts an entry in the log or counts in the newest (R167, R168). -/
theorem alarmPress (h : Keeps r s) : Keeps r s.alarmPress := by
  unfold State.alarmPress
  split
  · refine ((h.withAlarm (x := { s.alarm with state := .active, log := logEntry s.alarm.log s.alarmEntry }) ?_).withSign _).notify _ _
    exact fun ⟨atMost, _⟩ => ⟨logEntry_length _ atMost, fun _ => logEntry_ne_nil _ _⟩
  · refine (h.withAlarm ?_).notify _ _
    intro ⟨atMost, active⟩
    refine ⟨(onNewest_length _ _).trans_le atMost, fun isActive => ?_⟩
    rw [← List.length_pos_iff, onNewest_length, List.length_pos_iff]
    exact active isActive

theorem alarmTick (h : Keeps r s) : Keeps r s.alarmTick := by
  have read := h.withAlarm fun law => readLine_alarmLaw s.pins.alarm law
  unfold State.alarmTick
  dsimp only
  split
  · exact read.alarmPress
  · exact read

/-! ### Part clear -/

/-- At its completion the staging set is the active one and the masks are those of power-on (R193). -/
theorem completePartClear (h : Keeps r s) : Keeps r s.completePartClear := by
  refine Keeps.notify ?_ _ _
  have cleared := (h.withTariffs (x := { s.tariffs with staging := s.tariffs.active, chain := Chain.cleared }) fun ⟨active, _, rest⟩ =>
    ⟨active, active, rest⟩).withPorts (x := s.ports.partCleared (s.alarm.state == AlarmState.active)) fun _ p => by cases p <;> exact BitVec.and_not_self _
  exact cleared.elsewhere rfl

theorem partClearOn (h : Keeps r s) : Keeps r s.partClearOn := by
  unfold State.partClearOn
  split
  · split
    · exact h
    · exact h
    · exact h.completePartClear
    · split
      · exact h.elsewhere rfl
      · exact h.completePartClear
  · exact h

theorem recoveryEnd (h : Keeps r s) (failed : List Nat) : Keeps r (s.recoveryEnd failed) := by
  unfold State.recoveryEnd
  split
  · exact completePartClear (updateLow (h.withJournal fun _ => List.Pairwise.nil))
  · exact h

theorem recoveryStart (h : Keeps r s) : Keeps r s.recoveryStart := by
  unfold State.recoveryStart
  split
  · exact h.partClearOn
  · exact h

theorem tick (h : Keeps r s) (l : Lines) : Keeps r (s.tick l) := by
  have read : Keeps r { s with pins := l, timeBase := s.nextCount } := h.elsewhere rfl
  have before : Keeps r (preTick l s) := (((read.signTick _).readTalk _).readCall _).alarmTick
  rw [tick_eq]
  split
  · exact before.fareWork.partClearOn
  · exact before.partClearOn

end Keeps
end Sys2Proof.Machine
end

section
/-! The stored forms through the supply, the requests and the transfers, and at every step (R51, R118, R165, R167, R182, R187). -/

namespace Sys2Proof.Machine

/-- The slots as a loss of power leaves them are in their order (R119, R129). -/
theorem storeAfterLoss_canon {j : Journal} (reading : SlotReading) (h : StoreLaw j) : storeCanonical (storeAfterLoss j reading) := by
  unfold storeAfterLoss
  split
  · cases reading with
    | untouched => exact h
    | empty => exact List.Pairwise.filter _ h
    | whole => exact slotWrite_canon _ _ _ h
    | damaged => exact slotWrite_canon _ _ _ h
  · exact h

theorem powerOn_masks (active : Bool) : MaskLaw (Ports.powerOn active) := fun p => by
  cases p <;> cases active <;> decide

namespace Keeps

variable {r s : State}

/-- What comes of a choice, whichever way it falls. -/
theorem either {c : Prop} [Decidable c] {t u : State} (ht : Keeps r t) (hu : Keeps r u) : Keeps r (if c then t else u) := by
  split
  · exact ht
  · exact hu

/-! ### The supply -/

theorem whenRunning {f : State → State} (h : Keeps r s) (work : Keeps r (f s)) : Keeps r (whenRunning f s) := by
  unfold Machine.whenRunning
  split
  · exact work
  · exact h

theorem unlessFrozen {f : State → State} (h : Keeps r s) (work : Keeps r (f s)) : Keeps r (unlessFrozen f s) := by
  unfold Machine.unlessFrozen
  split
  · exact h
  · exact work

theorem warned (h : Keeps r s) : Keeps r s.warned := by
  unfold State.warned
  split
  · exact h.elsewhere rfl
  · exact h

theorem freeze (h : Keeps r s) : Keeps r s.freeze := by
  unfold State.freeze
  split
  · exact h.elsewhere rfl
  · exact h

theorem eraseLost (h : Keeps r s) (erased : List Nat) : Keeps r (s.eraseLost erased) := by
  unfold State.eraseLost
  split
  · exact h.withJournal (List.Pairwise.filter _)
  · exact h

theorem remaindersBelow (h : Keeps r s) : Keeps r s.remaindersBelow := by
  unfold State.remaindersBelow
  dsimp only
  unfold State.vacantBelow
  dsimp only
  split
  · exact h.elsewhere rfl
  · exact h.elsewhere rfl

theorem restoreHires (h : Keeps r s) : Keeps r s.restoreHires := by
  unfold State.restoreHires
  refine settle (settle (settle ?_ _) _) _
  split
  · exact h.elsewhere rfl
  · exact h.elsewhere rfl

theorem takeUp (h : Keeps r s) (u : StartUp) (configBad tariffBad : Bool) : Keeps r (s.takeUp u configBad tariffBad) := by
  have cleared : Keeps r { (s.eraseLost u.erased) with partClear := .idle } := (h.eraseLost _).elsewhere rfl
  unfold State.takeUp
  dsimp only
  refine fileOn (withShift (restoreHires ?_) _)
  split
  · refine remaindersBelow ?_
    split
    · exact cleared.elsewhere rfl
    · exact cleared
  · split
    · exact cleared.elsewhere rfl
    · exact cleared

/-- The slots read at a loss of the retention memory stay in their order; the clock and the alarm start afresh (R119, R187, R191). -/
theorem loseRetained (h : Keeps r s) (u : StartUp) : Keeps r (s.loseRetained u) := by
  have erased := h.eraseLost u.erased
  unfold State.loseRetained
  dsimp only
  refine fileOn (handOver (updateLow ?_) _)
  exact ⟨erased.places, fun law => storeAfterLoss_canon u.slot (erased.store law), erased.masks, fun _ => first_valid,
    fun _ => ⟨Nat.zero_le 8, nofun⟩⟩

theorem workingMemory (h : Keeps r s) : Keeps r s.workingMemory := by
  refine elsewhere (s := { s with alarm := s.alarm.powerOn, ports := Ports.powerOn (s.alarm.state == .active) }) ?_ rfl
  exact (h.withAlarm (x := s.alarm.powerOn) fun law => law).withPorts fun _ => powerOn_masks _

theorem startUp (h : Keeps r s) (intact : Bool) (u : StartUp) : Keeps r (s.startUp intact u) := by
  have loaded : Keeps r { s with pins := u.lines, tariffs := s.tariffs.loaded u, shift := s.shift.storeLoaded u } :=
    (h.withTariffs (loaded_places u)).elsewhere rfl
  unfold State.startUp
  dsimp only
  split
  · exact ((loaded.updateLowFrom _).takeUp _ _ _).workingMemory
  · exact (loaded.loseRetained _).workingMemory

/-! ### Requests of Shift Accounting -/

theorem checked {work : Owner} (h : Keeps r s) (checks : List (Bool × Code)) (hw : Keeps r (work s).1) :
    Keeps r (checked checks work s).1 := checked_keeps checks (fun _ => hw) h

theorem withSlot {work : SlotId → Owner} (h : Keeps r s) (b : Byte) (hw : ∀ sl, Keeps r (work sl s).1) : Keeps r (withSlot b work s).1 :=
  withSlot_keeps b (fun sl _ => hw sl) h

theorem openShiftOwner (h : Keeps r s) (driver : Half) : Keeps r (openShiftOwner driver s).1 :=
  h.checked _ (rederive (h.elsewhere rfl))

theorem emptyBooked (h : Keeps r s) (sl : SlotId) : Keeps r (s.emptyBooked sl) := by
  unfold State.emptyBooked
  split
  · exact h.enterStage _ _
  · exact h

theorem closeShiftOwner (h : Keeps r s) : Keeps r (closeShiftOwner s).1 := by
  unfold Machine.closeShiftOwner
  split
  · exact ((((h.withShift _).emptyBooked _).emptyBooked _).emptyBooked _).rederive.beginSummary.fileOn
  · exact h

theorem setPoolingOwner (h : Keeps r s) (pooling : Byte) : Keeps r (setPoolingOwner pooling s).1 := by
  unfold Machine.setPoolingOwner
  split
  · exact h
  · exact h.checked _ (h.withShift _).rederive

theorem readCounterOwner (h : Keeps r s) (p : PortId) (index : Byte) : Keeps r (readCounterOwner p index s).1 := by
  unfold Machine.readCounterOwner
  split
  · exact h
  · split <;> exact h

theorem onTotalsWrite (h : Keeps r s) (f : ShiftAccounting → TotalsWrite → ShiftAccounting) : Keeps r (s.onTotalsWrite f) := by
  unfold State.onTotalsWrite
  split
  · exact h.withShift _
  · exact h

/-! ### Requests of the Hire Controller -/

theorem bookOwner (h : Keeps r s) (slot : Byte) (ref : BitVec 64) (d : Half) : Keeps r (bookOwner slot ref d s).1 :=
  h.withSlot _ fun sl => h.checked _ (h.enterStage sl _)

theorem cancelBookingOwner (h : Keeps r s) (slot : Byte) : Keeps r (cancelBookingOwner slot s).1 :=
  h.withSlot _ fun sl => h.checked _ (h.enterStage sl _)

theorem startHireOwner (h : Keeps r s) (slot choice : Byte) : Keeps r (startHireOwner slot choice s).1 := by
  refine h.withSlot _ fun sl => h.checked _ ?_
  split
  · exact h
  · refine h.checked _ (enterStage ?_ sl _)
    exact h.elsewhere rfl

theorem suspendOwner (h : Keeps r s) (slot : Byte) : Keeps r (suspendOwner slot s).1 :=
  h.withSlot _ fun sl => h.checked _ ((h.enterStage sl _).count _ _)

theorem resumeOwner (h : Keeps r s) (slot : Byte) : Keeps r (resumeOwner slot s).1 :=
  h.withSlot _ fun sl => h.checked _ (h.enterStage sl _)

theorem stopHireOwner (h : Keeps r s) (slot : Byte) : Keeps r (stopHireOwner slot s).1 := by
  refine h.withSlot _ fun sl => ?_
  dsimp only
  split
  · exact h.enterStage _ _
  · exact h.enterStage _ _
  · exact h.putHire _ _
  · exact h.checked _ h
  · exact h
  · exact h
  · exact h

theorem addExtraOwner (h : Keeps r s) (slot extra : Byte) : Keeps r (addExtraOwner slot extra s).1 := by
  refine h.withSlot _ fun sl => h.checked _ ?_
  split
  · exact h
  · exact h.checked _ ((h.putHire sl _).settleAndFile sl)

theorem removeExtraOwner (h : Keeps r s) (slot extra : Byte) : Keeps r (removeExtraOwner slot extra s).1 := by
  refine h.withSlot _ fun sl => h.checked _ (settleAndFile (putHire ?_ sl _) sl)
  exact h.elsewhere rfl

theorem closeUnpaidOwner (h : Keeps r s) (slot : Byte) : Keeps r (closeUnpaidOwner slot s).1 :=
  h.withSlot _ fun sl => h.checked _ (h.enterFiling sl _).fileOn

theorem readHireOwner (h : Keeps r s) (p : PortId) (slot : Byte) : Keeps r (readHireOwner p slot s).1 :=
  h.withSlot _ fun sl => h.renew p sl

/-! ### Requests of the Settlement Unit -/

theorem claimOwner (h : Keeps r s) (p : PortId) (slot : Byte) : Keeps r (claimOwner p slot s).1 := by
  refine h.withSlot _ fun sl => h.checked _ ?_
  split
  · exact h.renew p sl
  · exact h.checked _ ((h.putHire sl _).settleAndFile sl)

theorem releaseOwner (h : Keeps r s) (p : PortId) (slot : Byte) : Keeps r (releaseOwner p slot s).1 :=
  h.withSlot _ fun sl => h.checked _ ((h.putHire sl _).settleAndFile sl)

theorem beginPaymentOwner (h : Keeps r s) (p : PortId) (slot method : Byte) (amount tip : Word) :
    Keeps r (beginPaymentOwner p slot method amount tip s).1 :=
  h.withSlot _ fun sl => h.checked _ ((h.putHire sl _).settleAndFile sl)

theorem postCashOwner (h : Keeps r s) (slot : Byte) (amount tip : Word) : Keeps r (postCashOwner slot amount tip s).1 :=
  h.withSlot _ fun sl => h.checked _ ((h.putHire sl _).settleAndFile sl)

theorem reverseEntry (h : Keeps r s) (p : PortId) (sl : SlotId) (index : Nat) (e : Payment) : Keeps r (reverseEntry p sl index e s).1 := by
  refine settleAndFile (putHire ?_ sl _) sl
  split
  · exact h.elsewhere rfl
  · exact h

theorem reverseOwner (h : Keeps r s) (p : PortId) (slot entry : Byte) : Keeps r (reverseOwner p slot entry s).1 := by
  refine h.withSlot _ fun sl => h.checked _ ?_
  split
  · exact h
  · exact h.checked _ (h.reverseEntry _ _ _ _)

theorem writeResult (h : Keeps r s) (p : PortId) (sl : SlotId) (index : Nat) (e : Payment) : Keeps r (writeResult p sl index e s).1 :=
  (h.putHire sl _).settleAndFile sl

theorem pendingResult (h : Keeps r s) (p : PortId) (sl : SlotId) (f : ResultFields) (approved : Bool) (route : Route) (e : Payment) :
    Keeps r (pendingResult p sl f approved route e s).1 := by
  unfold Machine.pendingResult
  split
  · exact h
  · split
    · exact h
    · split
      · exact h.writeResult _ _ _ _
      · split
        · exact h.writeResult _ _ _ _
        · split
          · refine writeResult ?_ _ _ _ _
            exact h.elsewhere rfl
          · exact h

theorem lateResult (h : Keeps r s) (sl : SlotId) (f : ResultFields) (approved : Bool) (e : Payment) :
    Keeps r (s.lateResult sl f approved e) := by
  unfold State.lateResult
  dsimp only
  split
  · exact h
  · split
    · split
      · exact h
      · exact (h.putHire _ _).lateApproval _ _ _ _ _ _
    · exact h.lateApproval _ _ _ _ _ _

theorem presentResult (h : Keeps r s) (p : PortId) (sl : SlotId) (f : ResultFields) (approved : Bool) (route : Route) :
    Keeps r (presentResult p sl f approved route s).1 := by
  unfold Machine.presentResult
  dsimp only
  split
  · exact h
  · split
    · exact h
    · split
      · exact h
      · split
        · exact h.pendingResult _ _ _ _ _ _
        · unfold expiredResult
          split
          · exact h
          · exact (h.lateResult _ _ _ _).renew _ _
        · exact h

theorem paymentResultOwner (h : Keeps r s) (p : PortId) (f : ResultFields) : Keeps r (paymentResultOwner p f s).1 := by
  unfold Machine.paymentResultOwner
  split
  · split
    · exact h
    · split
      · exact h.presentResult _ _ _ _ _
      · unfold goneResult
        split
        · exact h
        · split
          · exact h.lateApproval _ _ _ _ _ _
          · exact h
  · exact h

/-! ### Requests of the Tariff Store and the Time Base -/

theorem answerBlock (h : Keeps r s) (pl : List Byte) (c : Chain) (code : Code) (result : List Byte) :
    Keeps r (answerBlock pl c code result s).1 := by
  unfold Machine.answerBlock
  split <;> exact h.withTariffs (placesLaw_of_same rfl rfl rfl rfl)

/-- A block that is written leaves the staging set its places (R64). -/
theorem loadOwner (h : Keeps r s) (pl : List Byte) : Keeps r (loadOwner pl s).1 := by
  refine h.checked _ ?_
  unfold loadBlock
  split
  · exact h.answerBlock _ _ _ _
  · split
    · rename_i t applied
      refine answerBlock (withTariffs h ?_) _ _ _ _
      intro ⟨active, staging, rest⟩
      refine ⟨active, ?_, rest⟩
      cases hb : readBlock pl with
      | error c => rw [hb] at applied; cases applied
      | ok b =>
        rw [hb] at applied
        exact applyBlock_shaped applied staging
    · exact h.answerBlock _ _ _ _

theorem compareOwner (h : Keeps r s) (pl : List Byte) : Keeps r (compareOwner pl s).1 := by
  refine h.checked _ ?_
  unfold compareBlock
  split
  · exact h.answerBlock _ _ _ _
  · split <;> exact h.answerBlock _ _ _ _

theorem activateOwner (h : Keeps r s) : Keeps r (activateOwner s).1 :=
  h.checked _ (h.withTariffs fun ⟨active, staging, _, sections⟩ =>
    ⟨active, staging, fun _ taken => Option.some.inj taken ▸ staging, sections⟩)

theorem activationDone (h : Keeps r s) : Keeps r s.activationDone := by
  unfold State.activationDone
  split
  · rename_i new writing
    refine fileOn (notify (handOver (withTariffs h ?_) _) _ _)
    intro ⟨_, staging, activation, copyA, copyB⟩
    exact ⟨activation new writing, staging, nofun, write_shaped (activation new writing) copyA copyB⟩
  · exact h

theorem activationFailed (h : Keeps r s) : Keeps r s.activationFailed := by
  unfold State.activationFailed
  split
  · refine notify (withTariffs h ?_) _ _
    exact fun ⟨active, staging, _, sections⟩ => ⟨active, staging, nofun, sections⟩
  · exact h

theorem readTariffOwner (h : Keeps r s) (set item place : Byte) : Keeps r (readTariffOwner set item place s).1 := by
  unfold Machine.readTariffOwner
  split
  · exact h
  · split <;> exact h

theorem setConfigOwner (h : Keeps r s) (f : ConfigFields) : Keeps r (setConfigOwner f s).1 := by
  refine h.checked _ ?_
  have taken : Keeps r { s with
      tariffs := { s.tariffs with config := s.tariffs.config.updated f, configWrite := some 0 }
      odoRem := if changesK s f then 0 else s.odoRem } :=
    (h.withTariffs (placesLaw_of_same (y := { s.tariffs with config := s.tariffs.config.updated f, configWrite := some 0 })
      rfl rfl rfl rfl)).elsewhere rfl
  exact either (taken.updateLowFrom _) (taken.updateLowFrom _).fullLevelChanged

theorem configWritten (h : Keeps r s) : Keeps r s.configWritten := by
  unfold State.configWritten
  split
  · exact h.withTariffs (placesLaw_of_same rfl rfl rfl rfl)
  · exact h

theorem configWriteFailed (h : Keeps r s) : Keeps r s.configWriteFailed := by
  unfold State.configWriteFailed
  split
  · split <;> exact h.withTariffs (placesLaw_of_same rfl rfl rfl rfl)
  · exact h

/-- Only a valid time is taken (R187). -/
theorem setClockOwner (h : Keeps r s) (f : ClockFields) : Keeps r (setClockOwner f s).1 := by
  unfold Machine.setClockOwner
  split
  · exact h
  · rename_i taken
    exact ⟨h.places, h.store, h.masks, fun _ => (fr_cons.1 taken).1, h.alarm⟩

/-! ### Requests of the Journal, the Sign Driver and the Intercom Switch -/

theorem ackJournalOwner (h : Keeps r s) (seq : Word) : Keeps r (ackJournalOwner seq s).1 := by
  refine h.checked _ ?_
  split
  · exact h
  · exact updateLow (h.elsewhere rfl)

theorem readUnfiledOwner (h : Keeps r s) : Keeps r (readUnfiledOwner s).1 := by
  unfold Machine.readUnfiledOwner
  split <;> exact h

theorem ackUnfiledOwner (h : Keeps r s) (count : Byte) : Keeps r (ackUnfiledOwner count s).1 := h.checked _ (h.elsewhere rfl)

theorem signOverrideOwner (h : Keeps r s) (value : Byte) : Keeps r (signOverrideOwner value s).1 := by
  unfold Machine.signOverrideOwner
  split
  · exact h
  · split
    · exact h
    · split
      · exact (h.withSign _).rederive
      · exact h

theorem signTestRunOwner (h : Keeps r s) : Keeps r (signTestRunOwner s).1 := by
  unfold Machine.signTestRunOwner
  split
  · exact h
  · exact h.withSign _

theorem signTestOwner (h : Keeps r s) (value : Byte) : Keeps r (signTestOwner value s).1 := by
  unfold Machine.signTestOwner
  split
  · exact h.signTestRunOwner
  · split <;> exact h

theorem setTalkModeOwner (h : Keeps r s) (mode : Byte) : Keeps r (setTalkModeOwner mode s).1 := by
  unfold Machine.setTalkModeOwner
  split
  · exact h
  · split
    · exact h
    · exact h.withIntercom _

theorem setVolumeOwner (h : Keeps r s) (path volume : Byte) : Keeps r (setVolumeOwner path volume s).1 := by
  unfold Machine.setVolumeOwner
  split
  · exact h
  · exact h.checked _ (h.withIntercom _)

theorem postPromptOwner (h : Keeps r s) (tone : Byte) : Keeps r (postPromptOwner tone s).1 := h.checked _ (h.withIntercom _)

theorem setMonitorOwner (h : Keeps r s) (select : Byte) : Keeps r (setMonitorOwner select s).1 := by
  unfold Machine.setMonitorOwner
  split
  · exact h
  · exact h.withIntercom _

/-! ### Requests of the Alarm Unit and the Port Interface -/

/-- The entry of the alarm stays in the log, its stand-down time in it (R169). -/
theorem alarmStandDownOwner (h : Keeps r s) : Keeps r (alarmStandDownOwner s).1 := by
  unfold Machine.alarmStandDownOwner
  split
  · have down := h.withAlarm
      (x := { s.alarm with
        state := .quiet, log := onNewest (fun e => { e with stoodDown := some s.clock }) s.alarm.log })
      fun ⟨atMost, _⟩ => ⟨(onNewest_length _ _).trans_le atMost, nofun⟩
    exact down.withSign s.sign.flashOff
  · exact h

theorem clearPartOwner (h : Keeps r s) : Keeps r (clearPartOwner s).1 := by
  refine h.checked _ ?_
  exact (h.withTariffs (placesLaw_of_same (y := { s.tariffs with chain := Chain.cleared }) rfl rfl rfl rfl)).elsewhere rfl

theorem setIndicatorsOwner (h : Keeps r s) (enable value : Byte) : Keeps r (setIndicatorsOwner enable value s).1 := by
  refine either ?_ (notify ?_ _ _)
  · exact h.elsewhere rfl
  · exact h.elsewhere rfl

theorem ackNoticesOwner (h : Keeps r s) (p : PortId) (mask : Word) : Keeps r (ackNoticesOwner p mask s).1 := h.putPort (.inl rfl)

/-- The mask stored holds only kinds delivered to the port (R182). -/
theorem setNoticeMaskOwner (h : Keeps r s) (p : PortId) (mask : Word) : Keeps r (setNoticeMaskOwner p mask s).1 :=
  h.putPort (.inr (by simp [BitVec.and_assoc]))

/-! ### From a port to the owners -/

/-- The work of a request's owner, by its kind. -/
theorem ownerOf (h : Keeps r s) (p : PortId) (pl : List Byte) (k : Kind) : Keeps r (ownerOf p pl k s).1 :=
  match k with
  | .openShift => h.openShiftOwner _
  | .closeShift => h.closeShiftOwner
  | .setPooling => h.setPoolingOwner _
  | .readShift => h
  | .latchCounters => h.putPort (.inl rfl)
  | .readCounter => h.readCounterOwner _ _
  | .book => h.bookOwner _ _ _
  | .cancelBooking => h.cancelBookingOwner _
  | .startHire => h.startHireOwner _ _
  | .suspend => h.suspendOwner _
  | .resume => h.resumeOwner _
  | .stopHire => h.stopHireOwner _
  | .addExtra => h.addExtraOwner _ _
  | .removeExtra => h.removeExtraOwner _ _
  | .closeUnpaid => h.closeUnpaidOwner _
  | .readHire => h.readHireOwner _ _
  | .claim => h.claimOwner _ _
  | .release => h.releaseOwner _ _
  | .beginPayment => h.beginPaymentOwner _ _ _ _ _
  | .paymentResult => h.paymentResultOwner _ _
  | .reverse => h.reverseOwner _ _ _
  | .postCash => h.postCashOwner _ _ _
  | .load => h.loadOwner _
  | .compare => h.compareOwner _
  | .activate => h.activateOwner
  | .readTariff => h.readTariffOwner _ _ _
  | .setConfig => h.setConfigOwner _
  | .setClock => by
    show Keeps r (setClockPayload pl s).1
    unfold setClockPayload
    split
    · exact h
    · exact h.setClockOwner _
  | .readJournal => h.checked _ h
  | .ackJournal => h.ackJournalOwner _
  | .readUnfiled => h.readUnfiledOwner
  | .ackUnfiled => h.ackUnfiledOwner _
  | .signOverride => h.signOverrideOwner _
  | .signTest => h.signTestOwner _
  | .signClear => h.elsewhere rfl
  | .setTalkMode => h.setTalkModeOwner _
  | .setVolume => h.setVolumeOwner _ _
  | .readIntercom => h.withIntercom _
  | .intercomClear => h.withIntercom _
  | .postPrompt => h.postPromptOwner _
  | .setMonitor => h.setMonitorOwner _
  | .alarmStandDown => h.alarmStandDownOwner
  | .readAlarmLog => h
  | .clearPart => h.clearPartOwner
  | .setIndicators => h.setIndicatorsOwner _ _
  | .readIndicators => h
  | .ackNotices => h.ackNoticesOwner _ _
  | .setNoticeMask => h.setNoticeMaskOwner _ _
  | .setStageMask => h.putPort (.inl rfl)
  | .null => h

theorem admitRequest {owner : Owner} (h : Keeps r s) (p : PortId) (k tag : Byte) (offered : Bool) (work : Keeps r (owner s).1) :
    Keeps r (admitRequest p k tag offered owner s) := by
  unfold Machine.admitRequest
  split
  · exact h
  · exact h.refuse _ _ _
  · split
    · exact h.refuse _ _ _
    · split
      · exact work.answer _ _ _ _
      · exact h.answer _ _ _ _

theorem admitNull (h : Keeps r s) (p : PortId) (tag : Byte) : Keeps r (admitNull p tag s) := by
  unfold Machine.admitNull
  split
  · exact h
  · exact h.refuse _ _ _
  · have discarded : Keeps r (s.putPort p (s.port p).discard) := h.putPort (.inl rfl)
    unfold State.takeNull
    dsimp only
    split
    · exact discarded.withTariffs (placesLaw_of_same rfl rfl rfl rfl)
    · exact discarded

theorem takeFrame (h : Keeps r s) (p : PortId) (bs : List Byte) : Keeps r (takeFrame p bs s) := by
  unfold Machine.takeFrame
  dsimp only
  split
  · unfold takeRequest
    split
    · exact h.admitNull _ _
    · refine h.admitRequest _ _ _ _ ?_
      unfold checkedOwner
      split
      · exact h.ownerOf _ _ _
      · exact h
    · exact h.admitRequest _ _ _ _ h
  · exact h.refuse _ _ _

theorem setReceive (h : Keeps r s) (p : PortId) (x : Option (List Byte)) : Keeps r (s.setReceive p x) := h.putPort (.inl rfl)

theorem receiveByte (h : Keeps r s) (p : PortId) (b : Byte) : Keeps r (receiveByte p s b) := by
  unfold Machine.receiveByte
  split
  · exact h
  · split
    · exact h.setReceive _ _
    · exact (h.setReceive _ _).refuse _ _ _
    · exact (h.setReceive _ _).takeFrame _ _

theorem receiveBytes (p : PortId) (bs : List Byte) : ∀ {s : State}, Keeps r s → Keeps r (receiveBytes p bs s) := by
  induction bs with
  | nil => exact fun h => h
  | cons b bs ih => exact fun h => ih (h.receiveByte p b)

theorem sampleSeal (h : Keeps r s) (sealed : Bool) : Keeps r (s.sampleSeal sealed) := h.elsewhere rfl

theorem shiftOut (h : Keeps r s) (p : PortId) (bs : List Byte) : Keeps r (s.shiftOut p bs) := h.putPort (.inl rfl)

theorem markRead_enable (x : Port) (f : Frame) : (x.markRead f).enable = x.enable := by
  unfold Port.markRead
  split <;> rfl

theorem readTransfer (h : Keeps r s) (p : PortId) (n : Nat) : Keeps r (s.readTransfer p n) := by
  unfold State.readTransfer
  dsimp only
  split
  · exact h.shiftOut _ _
  · split
    · exact (h.shiftOut _ _).putPort (.inl (markRead_enable _ _))
    · exact h.shiftOut _ _

end Keeps

/-! ### Every command and every step -/

/-- Whatever state an outcome leads to keeps the forms. -/
def KeepsTo (s : State) (o : Host.Outcome State Fault Refusal) : Prop := ∀ t, o = .next t → Keeps s t

theorem keepsTo_next {s t : State} (h : Keeps s t) : KeepsTo s (.next t) := by
  intro u same
  injection same with same
  exact same ▸ h

/-- A request keeps what its owner's work keeps. -/
theorem keepsTo_request {s : State} {owner : Owner} (p : PortId) (k : Kind) (tag : Byte) (work : Keeps s (owner s).1) :
    KeepsTo s (request p k tag owner s) := keepsTo_next ((Keeps.refl s).admitRequest _ _ _ _ work)

/-- A request whose payload is long enough is its owner's work; a longer one is malformed (R175). -/
theorem keepsTo_requestBlock {s : State} {owner : Owner} (p : PortId) (k : Kind) (tag : Byte) (pl : List Byte)
    (work : Keeps s (owner s).1) : KeepsTo s (requestBlock p k tag pl owner s) := by
  unfold requestBlock
  split
  · exact keepsTo_request _ _ _ work
  · refine keepsTo_next ?_
    split
    · exact Keeps.refl s
    · exact (Keeps.refl s).refuse _ _ _

/-- A tick in which an event falls is a tick (log entry 4). -/
theorem keepsTo_tickWith (falls : State → Bool) (l : Lines) (s : State) : KeepsTo s (.next (tickWith falls l s)) := by
  refine keepsTo_next ?_
  unfold tickWith
  split
  · exact (Keeps.refl s).whenRunning ((Keeps.refl s).tick l)
  · exact Keeps.refl s

/-- An event of a running part, with a condition of its own. -/
theorem keepsTo_event {s : State} {f : State → State} (work : Keeps s (f s)) : KeepsTo s (.next (whenRunning f s)) :=
  keepsTo_next ((Keeps.refl s).whenRunning work)

/-- A transfer on a port of a part that is not frozen. -/
theorem keepsTo_transfer {s : State} {f : State → State} (work : Keeps s (f s)) : KeepsTo s (.next (unlessFrozen f s)) :=
  keepsTo_next ((Keeps.refl s).unlessFrozen work)

/-- An event that falls or does not (log entry 4). -/
theorem keepsTo_ite {s : State} {c : Prop} [Decidable c] {f : State → State} (work : Keeps s (f s)) :
    KeepsTo s (.next (if c then whenRunning f s else s)) := by
  split
  · exact keepsTo_event work
  · exact keepsTo_next (Keeps.refl s)

/-- Every command keeps the forms. -/
theorem exec_keeps (i : Instr) (s : State) : KeepsTo s (exec i s) :=
  have h := Keeps.refl s
  match i with
  | .openShift _ _ _ => keepsTo_request _ _ _ (h.openShiftOwner _)
  | .closeShift _ _ => keepsTo_request _ _ _ h.closeShiftOwner
  | .setPooling _ _ _ => keepsTo_request _ _ _ (h.setPoolingOwner _)
  | .readShift _ _ => keepsTo_request _ _ _ h
  | .latchCounters _ _ => keepsTo_request _ _ _ (h.putPort (.inl rfl))
  | .readCounter _ _ _ => keepsTo_request _ _ _ (h.readCounterOwner _ _)
  | .book _ _ _ _ _ => keepsTo_request _ _ _ (h.bookOwner _ _ _)
  | .cancelBooking _ _ _ => keepsTo_request _ _ _ (h.cancelBookingOwner _)
  | .startHire _ _ _ _ => keepsTo_request _ _ _ (h.startHireOwner _ _)
  | .suspend _ _ _ => keepsTo_request _ _ _ (h.suspendOwner _)
  | .resume _ _ _ => keepsTo_request _ _ _ (h.resumeOwner _)
  | .stopHire _ _ _ => keepsTo_request _ _ _ (h.stopHireOwner _)
  | .addExtra _ _ _ _ => keepsTo_request _ _ _ (h.addExtraOwner _ _)
  | .removeExtra _ _ _ _ => keepsTo_request _ _ _ (h.removeExtraOwner _ _)
  | .closeUnpaid _ _ _ => keepsTo_request _ _ _ (h.closeUnpaidOwner _)
  | .readHire _ _ _ => keepsTo_request _ _ _ (h.readHireOwner _ _)
  | .claim _ _ _ => keepsTo_request _ _ _ (h.claimOwner _ _)
  | .release _ _ _ => keepsTo_request _ _ _ (h.releaseOwner _ _)
  | .beginPayment _ _ _ _ _ _ => keepsTo_request _ _ _ (h.beginPaymentOwner _ _ _ _ _)
  | .paymentResult _ _ _ => keepsTo_request _ _ _ (h.paymentResultOwner _ _)
  | .reverse _ _ _ _ => keepsTo_request _ _ _ (h.reverseOwner _ _ _)
  | .postCash _ _ _ _ _ => keepsTo_request _ _ _ (h.postCashOwner _ _ _)
  | .load _ _ _ => keepsTo_requestBlock _ _ _ _ (h.loadOwner _)
  | .compare _ _ _ => keepsTo_requestBlock _ _ _ _ (h.compareOwner _)
  | .activate _ _ => keepsTo_request _ _ _ h.activateOwner
  | .readTariff _ _ _ _ _ => keepsTo_request _ _ _ (h.readTariffOwner _ _ _)
  | .setConfig _ _ x =>
    have sampled := h.sampleSeal x.sealed
    keepsTo_transfer (sampled.admitRequest _ _ _ _ (sampled.setConfigOwner _))
  | .setClock _ _ _ => keepsTo_request _ _ _ (h.setClockOwner _)
  | .setClockRead _ _ => keepsTo_request _ _ _ h
  | .readJournal _ _ _ => keepsTo_request _ _ _ (h.checked _ h)
  | .ackJournal _ _ _ => keepsTo_request _ _ _ (h.ackJournalOwner _)
  | .readUnfiled _ _ => keepsTo_request _ _ _ h.readUnfiledOwner
  | .ackUnfiled _ _ _ => keepsTo_request _ _ _ (h.ackUnfiledOwner _)
  | .signOverride _ _ _ => keepsTo_request _ _ _ (h.signOverrideOwner _)
  | .signOverrideReport _ _ => keepsTo_request _ _ _ h
  | .signTestRun _ _ => keepsTo_request _ _ _ h.signTestRunOwner
  | .signTestReport _ _ => keepsTo_request _ _ _ h
  | .signClear _ _ => keepsTo_request _ _ _ (h.elsewhere rfl)
  | .setTalkMode _ _ _ => keepsTo_request _ _ _ (h.setTalkModeOwner _)
  | .setVolume _ _ _ _ => keepsTo_request _ _ _ (h.setVolumeOwner _ _)
  | .readIntercom _ _ => keepsTo_request _ _ _ (h.withIntercom _)
  | .intercomClear _ _ => keepsTo_request _ _ _ (h.withIntercom _)
  | .postPrompt _ _ _ => keepsTo_request _ _ _ (h.postPromptOwner _)
  | .setMonitor _ _ _ => keepsTo_request _ _ _ (h.setMonitorOwner _)
  | .alarmStandDown _ _ => keepsTo_request _ _ _ h.alarmStandDownOwner
  | .readAlarmLog _ _ => keepsTo_request _ _ _ h
  | .clearPart _ _ => keepsTo_request _ _ _ h.clearPartOwner
  | .setIndicators _ _ _ _ => keepsTo_request _ _ _ (h.setIndicatorsOwner _ _)
  | .readIndicators _ _ => keepsTo_request _ _ _ h
  | .ackNotices _ _ _ => keepsTo_request _ _ _ (h.ackNoticesOwner _ _)
  | .setNoticeMask _ _ _ => keepsTo_request _ _ _ (h.setNoticeMaskOwner _ _)
  | .setStageMask _ _ _ => keepsTo_request _ _ _ (h.putPort (.inl rfl))
  | .null _ _ => keepsTo_next (h.admitNull _ _)
  | .writeStart _ x => keepsTo_transfer (Keeps.receiveBytes _ _ ((h.sampleSeal x.sealed).setReceive _ _))
  | .writeContinue _ x => keepsTo_transfer (Keeps.receiveBytes _ _ (h.sampleSeal x.sealed))
  | .readFrame _ _ => keepsTo_transfer (h.readTransfer _ _)
  | .repeatFrame _ _ => keepsTo_transfer (h.shiftOut _ _)
  | .wheelPulse => keepsTo_event h.wheelPulse
  | .totalMetres100m => keepsTo_ite h.wheelPulse
  | .tick l => keepsTo_event (h.tick l)
  | .fareTick _ => keepsTo_tickWith _ _ _
  | .ambientChange _ => keepsTo_tickWith _ _ _
  | .flashPhase _ => keepsTo_tickWith _ _ _
  | .signTestStep _ => keepsTo_tickWith _ _ _
  | .bookingExpired _ _ => keepsTo_tickWith _ _ _
  | .paymentExpired _ _ _ => keepsTo_tickWith _ _ _
  | .claimExpired _ _ => keepsTo_tickWith _ _ _
  | .configWriteComplete => keepsTo_event h.configWritten
  | .configWriteFail => keepsTo_event h.configWriteFailed
  | .activationDone => keepsTo_event h.activationDone
  | .activationFailed => keepsTo_event h.activationFailed
  | .totalizerWriteComplete => keepsTo_event (h.onTotalsWrite _)
  | .totalizerWriteFail => keepsTo_event (h.onTotalsWrite _)
  | .journalVerifyPass => keepsTo_event (by
      split
      · exact h.verifyPass.partClearOn
      · exact h)
  | .journalVerifyFail => keepsTo_event (by
      split
      · exact h.verifyFail.partClearOn
      · exact h)
  | .journalRecoveryStart => keepsTo_event h.recoveryStart
  | .journalRecoveryEnd _ => keepsTo_event (h.recoveryEnd _)
  | .partClearComplete _ => keepsTo_tickWith _ _ _
  | .alarmPress _ => keepsTo_tickWith _ _ _
  | .frontCodecFrame _ => keepsTo_event (h.withIntercom _)
  | .rearCodecFrame _ => keepsTo_event (h.withIntercom _)
  | .promptEnd _ => keepsTo_ite (h.withIntercom _)
  | .chimeEnd _ => keepsTo_ite (h.withIntercom _)
  | .rtcSecond => keepsTo_next ⟨h.places, h.store, h.masks, secondOn_valid, h.alarm⟩
  | .powerFailWarning => keepsTo_next h.warned
  | .freeze => keepsTo_next h.freeze
  | .freezeExit u => keepsTo_next (by
      split
      · exact h.startUp _ _
      · exact h)
  | .powerOn u => keepsTo_next (h.startUp _ _)

/-- Every step keeps the forms. -/
theorem step_keeps {s t : State} (next : step s = .next t) : Keeps s t := by
  unfold step at next
  split at next
  · injection next with same
    exact same ▸ Keeps.refl s
  · rename_i c rest queued
    have kept := exec_keeps c { s with pending := rest } t next
    exact ⟨kept.places, kept.store, kept.masks, kept.clock, kept.alarm⟩

/-- Settles O60: each form is kept by every step, as every command keeps all five. -/
theorem everyStepKeepsTheStoredForms : Obligations.EveryStepKeepsTheStoredForms :=
  ⟨fun _ _ law next => (step_keeps next).places law, fun _ _ law next => (step_keeps next).store law,
    fun _ _ law next => (step_keeps next).masks law, fun _ _ law next => (step_keeps next).clock law,
    fun _ _ law next => (step_keeps next).alarm law⟩

end Sys2Proof.Machine
end

section
/-! SET_CLOCK and the calendar's choice (R56, R187), with the statement on the clock. -/

namespace Sys2Proof.Machine

/-! ### SET_CLOCK -/

theorem setClockOwner_taken {f : ClockFields} {s : State} (valid : (clockTimeOf f).valid = true)
    (near : s.shift.state = .closed ∨ (clockTimeOf f).near s.clock = true) :
    setClockOwner f s = clockReply { s with clock := clockTimeOf f, clockStatus := .set } .ok := by
  have checks : firstRefusal [((clockTimeOf f).valid, .range),
      (s.shift.state == .closed || (clockTimeOf f).near s.clock, .shiftState)] = none := by
    rcases near with near | near <;> simp [firstRefusal, valid, near]
  unfold setClockOwner
  rw [checks]

theorem setClockOwner_invalid {f : ClockFields} {s : State} (invalid : (clockTimeOf f).valid = false) :
    setClockOwner f s = clockReply s .range := by
  unfold setClockOwner
  rw [invalid]
  rfl

theorem setClockOwner_far {f : ClockFields} {s : State} (valid : (clockTimeOf f).valid = true) (notClosed : s.shift.state ≠ .closed)
    (far : (clockTimeOf f).near s.clock = false) : setClockOwner f s = clockReply s .shiftState := by
  have checks : firstRefusal [((clockTimeOf f).valid, .range),
      (s.shift.state == .closed || (clockTimeOf f).near s.clock, .shiftState)] = some .shiftState := by
    simp [firstRefusal, valid, far, notClosed]
  unfold setClockOwner
  rw [checks]

/-- Every reply of SET_CLOCK carries the clock and its status (R187). -/
theorem request_clock {s t : State} {tag : Byte} {owner : Owner} {c : Code} (ready : Ready s .fleet) (work : owner s = clockReply t c) :
    request .fleet .setClock tag owner s = .next (t.replied .fleet .setClock tag c (t.clock.bytes ++ [t.clockStatus.byte])) := by
  rw [request_ready ready rfl, work]
  rfl

/-! ### The best entry of a calendar -/

/-- An entry is the best of those that satisfy a test: the greatest start, ties to the lowest index; none when none satisfies it (R56). -/
def IsBest (cal : List (Option CalendarEntry)) (test : CalendarEntry → Bool) : Option CalendarEntry → Prop
  | some e => ∃ i : Nat, cal[i]? = some (some e) ∧ test e = true
      ∧ ∀ (j : Nat) (x : CalendarEntry), cal[j]? = some (some x) → test x = true → x.start < e.start ∨ x.start = e.start ∧ i ≤ j
  | none => ∀ (j : Nat) (x : CalendarEntry), cal[j]? = some (some x) → test x = false

/-- The entries of a calendar with one place more. -/
theorem entry_concat {cal : List (Option CalendarEntry)} {e : Option CalendarEntry} {j : Nat} {x : CalendarEntry}
    (h : (cal ++ [e])[j]? = some (some x)) : cal[j]? = some (some x) ∨ j = cal.length ∧ e = some x := by
  rcases Nat.lt_trichotomy j cal.length with lt | eq | gt
  · exact .inl (by rwa [List.getElem?_append_left lt] at h)
  · subst eq
    exact .inr ⟨rfl, by simpa using h⟩
  · rw [List.getElem?_eq_none (by simp; omega)] at h
    cases h

theorem entry_lt {cal : List (Option CalendarEntry)} {j : Nat} {x : CalendarEntry} (h : cal[j]? = some (some x)) : j < cal.length :=
  (List.getElem?_eq_some_iff.1 h).1

theorem entry_concat_left {cal : List (Option CalendarEntry)} {j : Nat} {x : CalendarEntry} (e : Option CalendarEntry)
    (h : cal[j]? = some (some x)) : (cal ++ [e])[j]? = some (some x) := by
  rw [List.getElem?_append_left (entry_lt h), h]

/-- A place without an entry that satisfies the test leaves the best as it was. -/
theorem isBest_concat_other {cal : List (Option CalendarEntry)} {test : CalendarEntry → Bool} {best e : Option CalendarEntry}
    (h : IsBest cal test best) (fails : ∀ x, e = some x → test x = false) : IsBest (cal ++ [e]) test best := by
  cases best with
  | none =>
    intro j x hx
    rcases entry_concat hx with old | ⟨-, new⟩
    · exact h j x old
    · exact fails x new
  | some y =>
    obtain ⟨i, hi, sat, greatest⟩ := h
    refine ⟨i, entry_concat_left e hi, sat, fun j x hx hsat => ?_⟩
    rcases entry_concat hx with old | ⟨-, new⟩
    · exact greatest j x old hsat
    · exact absurd hsat (by simp [fails x new])

/-- The next place in index order gives way to the best so far unless its start is greater (R56). -/
theorem isBest_concat {cal : List (Option CalendarEntry)} {test : CalendarEntry → Bool} {best : Option CalendarEntry}
    (e : Option CalendarEntry) (h : IsBest cal test best) : IsBest (cal ++ [e]) test (betterEntry test best e) := by
  cases e with
  | none => exact isBest_concat_other h nofun
  | some x =>
    cases hx : test x with
    | false =>
      have same : betterEntry test best (some x) = best := by simp [betterEntry, hx]
      rw [same]
      exact isBest_concat_other h fun y hy => by rw [← Option.some.inj hy, hx]
    | true =>
      have here : (cal ++ [some x])[cal.length]? = some (some x) := by simp
      cases best with
      | none =>
        have first : betterEntry test none (some x) = some x := by simp [betterEntry, hx]
        rw [first]
        refine ⟨cal.length, here, hx, fun j z hz sat => ?_⟩
        rcases entry_concat hz with old | ⟨rfl, new⟩
        · exact absurd sat (by simp [h j z old])
        · exact .inr ⟨congrArg CalendarEntry.start (Option.some.inj new).symm, Nat.le_refl _⟩
      | some y =>
        obtain ⟨i, hi, sat, greatest⟩ := h
        by_cases later : y.start < x.start
        · have better : betterEntry test (some y) (some x) = some x := by simp [betterEntry, hx, later]
          rw [better]
          refine ⟨cal.length, here, hx, fun j z hz hsat => ?_⟩
          rcases entry_concat hz with old | ⟨rfl, new⟩
          · rcases greatest j z old hsat with lt | ⟨eq, -⟩
            · exact .inl (Nat.lt_trans lt later)
            · exact .inl (eq ▸ later)
          · exact .inr ⟨congrArg CalendarEntry.start (Option.some.inj new).symm, Nat.le_refl _⟩
        · have stays : betterEntry test (some y) (some x) = some y := by simp [betterEntry, hx, later]
          rw [stays]
          refine ⟨i, entry_concat_left _ hi, sat, fun j z hz hsat => ?_⟩
          rcases entry_concat hz with old | ⟨rfl, new⟩
          · exact greatest j z old hsat
          · obtain rfl : x = z := Option.some.inj new
            have before := entry_lt hi
            omega

theorem bestEntry_isBest (cal : List (Option CalendarEntry)) (test : CalendarEntry → Bool) : IsBest cal test (bestEntry cal test) := by
  induction cal using List.reverseRecOn with
  | nil => exact fun j x h => by simp at h
  | append_singleton cal e ih =>
    unfold bestEntry
    rw [List.foldl_append]
    exact isBest_concat e ih

/-- An empty calendar has no best entry. -/
theorem bestEntry_empty {cal : List (Option CalendarEntry)} (empty : ∀ j : Nat, cal[j]? = none ∨ cal[j]? = some none)
    (test : CalendarEntry → Bool) : bestEntry cal test = none := by
  have best := bestEntry_isBest cal test
  cases h : bestEntry cal test with
  | none => rfl
  | some e =>
    rw [h] at best
    obtain ⟨i, hi, -⟩ := best
    rcases empty i with no | no <;> rw [no] at hi <;> simp at hi

/-! ### The search back -/

/-- The search ends at the first day back that has an entry (R56). -/
theorem searchBack_first {cal : List (Option CalendarEntry)} {today : Nat} {e : CalendarEntry} (n : Nat) : ∀ {tried back : Nat}, back < n →
    (∀ m, m < back → bestEntry cal (fun x => x.on (weekdayBefore today (tried + m + 1))) = none) →
    bestEntry cal (fun x => x.on (weekdayBefore today (tried + back + 1))) = some e → searchBack cal today tried n = some e := by
  induction n with
  | zero => exact fun lt _ _ => absurd lt (Nat.not_lt_zero _)
  | succ n ih =>
    intro tried back lt nothing found
    unfold searchBack
    cases back with
    | zero => rw [show bestEntry cal (fun x => x.on (weekdayBefore today (tried + 1))) = some e from found]
    | succ back =>
      rw [show bestEntry cal (fun x => x.on (weekdayBefore today (tried + 1))) = none from nothing 0 (Nat.succ_pos _)]
      refine ih (Nat.lt_of_succ_lt_succ lt) (fun m hm => ?_) ?_
      · rw [Nat.add_right_comm tried 1 m]
        exact nothing (m + 1) (Nat.succ_lt_succ hm)
      · rw [Nat.add_right_comm tried 1 back]
        exact found

theorem searchBack_empty {cal : List (Option CalendarEntry)} (empty : ∀ j : Nat, cal[j]? = none ∨ cal[j]? = some none) (today n : Nat) :
    ∀ tried, searchBack cal today tried n = none := by
  induction n with
  | zero => exact fun _ => rfl
  | succ n ih =>
    intro tried
    unfold searchBack
    rw [bestEntry_empty empty]
    exact ih _

theorem calendarChoice_today {cal : List (Option CalendarEntry)} {now : ClockTime} {e : CalendarEntry}
    (best : bestEntry cal (fun x => x.on now.weekday && decide (x.start ≤ now.minuteOfDay)) = some e) : calendarChoice cal now = e.tariff := by
  unfold calendarChoice
  rw [best]

/-- With nothing begun today the search back decides (R56). -/
theorem calendarChoice_back {cal : List (Option CalendarEntry)} {now : ClockTime} {back : Option CalendarEntry}
    (nothing : bestEntry cal (fun x => x.on now.weekday && decide (x.start ≤ now.minuteOfDay)) = none)
    (search : searchBack cal now.weekday 0 7 = back) : calendarChoice cal now = (back.map CalendarEntry.tariff).getD 1 := by
  unfold calendarChoice
  rw [nothing, search]
  cases back <;> rfl

/-! ### The statement -/

/-- Settles O32: SET_CLOCK by the check that decides it, the second by the date and the second of the day, the choice by the best entry of
each day searched. -/
theorem theClockIsSetMovesAndChoosesTariffs : Obligations.TheClockIsSetMovesAndChoosesTariffs := by
  refine ⟨fun tag f s ready => ⟨fun valid near => request_clock ready (setClockOwner_taken valid near),
      fun invalid => request_clock ready (setClockOwner_invalid invalid),
      fun valid notClosed far => request_clock ready (setClockOwner_far valid notClosed far), request_clock ready rfl⟩,
    fun s valid => ⟨s.secondOn, rfl, rfl, secondOn_valid valid, fun notLast => ⟨plus_one_toSeconds valid notLast, ?_⟩,
      fun last => ⟨plus_one_last valid last, ?_⟩⟩,
    fun cal test => ⟨fun e best => ?_, fun noEntry => ?_⟩,
    fun cal now => ⟨fun e => calendarChoice_today, fun nothing => ⟨fun back e lt before found => ?_, fun empty => ?_⟩⟩⟩
  · exact if_neg (by rw [notLast]; decide)
  · exact if_pos last
  · have h := bestEntry_isBest cal test
    rwa [best] at h
  · have h := bestEntry_isBest cal test
    rwa [noEntry] at h
  · refine calendarChoice_back nothing (searchBack_first (tried := 0) (back := back) 7 lt ?_ ?_)
    · intro m hm
      rw [Nat.zero_add]
      exact before m hm
    · rw [Nat.zero_add]
      exact found
  · exact calendarChoice_back nothing (searchBack_empty empty _ _ _)

end Sys2Proof.Machine
end

section
/-! Chain blocks laid out and read back (R53, R55, R58, 10_ports Chain blocks), with their statement. -/

namespace Sys2Proof.Machine

/-! ### Numbers in bytes -/

theorem byte_toNat {n : Nat} (h : n < 256) : (BitVec.ofNat 8 n).toNat = n := by
  rw [BitVec.toNat_ofNat]
  exact Nat.mod_eq_of_lt h

theorem beNat_be2 {n : Nat} (h : n < 65536) : beNat (be2 n) = n := by
  simp only [beNat, be2, List.foldl, BitVec.toNat_ofNat]
  omega

theorem beNat_be4 {n : Nat} (h : n < 4294967296) : beNat (be4 n) = n := by
  simp only [beNat, be4, List.foldl, BitVec.toNat_ofNat]
  omega

theorem onOff_flagByte (b : Bool) : onOff (flagByte b) = some b := by cases b <;> rfl

theorem bandModeOf_byte (m : BandMode) : bandModeOf m.byte = some m := by cases m <;> rfl

theorem placeId_iff (n : Nat) : placeId n = true ↔ 1 ≤ n ∧ n ≤ 8 := by simp [placeId]

/-! ### Bands -/

theorem band_inRange_iff (b : Band) : b.inRange = true ↔
    1 ≤ b.step ∧ b.step ≤ 5000 ∧ 1 ≤ b.time ∧ b.time ≤ 6000 ∧ 1 ≤ b.amount ∧ b.amount ≤ 9999 := by
  simp [Band.inRange, and_assoc]

/-- A band's eleven bytes, whatever follows them, read back as the band. -/
theorem bandAt_bytes {b : Band} (start : b.start ≤ 500000) (inRange : b.inRange = true) (rest : List Byte) :
    bandAt (b.bytes ++ rest) = some b := by
  obtain ⟨-, step, -, time, -, amount⟩ := (band_inRange_iff b).1 inRange
  have fields : bandAt (b.bytes ++ rest)
      = (bandModeOf b.mode.byte).map fun m => ⟨beNat (be4 b.start), beNat (be2 b.step), beNat (be2 b.time), beNat (be2 b.amount), m⟩ := rfl
  rw [fields, bandModeOf_byte, beNat_be4 (by omega), beNat_be2 (by omega), beNat_be2 (by omega), beNat_be2 (by omega)]
  rfl

theorem bandsAt_bytes {bands : List Band} (start : ∀ b ∈ bands, b.start ≤ 500000) (inRange : ∀ b ∈ bands, b.inRange = true) :
    bandsAt bands.length (bands.flatMap Band.bytes) = some bands := by
  induction bands with
  | nil => rfl
  | cons b rest ih =>
    obtain ⟨startHere, startRest⟩ := List.forall_mem_cons.1 start
    obtain ⟨here, there⟩ := List.forall_mem_cons.1 inRange
    have following : (b.bytes ++ rest.flatMap Band.bytes).drop 11 = rest.flatMap Band.bytes := rfl
    rw [List.flatMap_cons, List.length_cons, bandsAt, bandAt_bytes startHere here, following, ih startRest there]
    rfl

theorem flatMap_bytes_length (bands : List Band) : (bands.flatMap Band.bytes).length = 11 * bands.length := by
  induction bands with
  | nil => rfl
  | cons b rest ih =>
    have eleven : b.bytes.length = 11 := rfl
    rw [List.flatMap_cons, List.length_append, List.length_cons, ih, eleven]
    omega

theorem startsRise_le {before : Nat} {bands : List Band} (h : startsRise before bands = true) : ∀ b ∈ bands, b.start ≤ 500000 := by
  induction bands generalizing before with
  | nil => exact nofun
  | cons x rest ih =>
    have ⟨⟨_, here⟩, there⟩ : (before < x.start ∧ x.start ≤ 500000) ∧ startsRise x.start rest = true := by simpa [startsRise] using h
    exact List.forall_mem_cons.2 ⟨here, ih there⟩

/-- Bands in range are at most four, each within its bounds (R53). -/
theorem bandsInRange_bounds {bands : List Band} (h : bandsInRange bands = true) :
    bands.length ≤ 4 ∧ (∀ b ∈ bands, b.start ≤ 500000) ∧ ∀ b ∈ bands, b.inRange = true := by
  cases bands with
  | nil => cases h
  | cons b rest =>
    obtain ⟨⟨⟨few, zero⟩, rise⟩, all⟩ : ((rest.length ≤ 3 ∧ b.start = 0) ∧ startsRise 0 rest = true)
        ∧ (b :: rest).all Band.inRange = true := by simpa only [bandsInRange, Bool.and_eq_true, decide_eq_true_eq, beq_iff_eq] using h
    exact ⟨Nat.succ_le_succ few, List.forall_mem_cons.2 ⟨by omega, startsRise_le rise⟩, List.all_eq_true.1 all⟩

/-! ### Tariff records -/

theorem tariff_inRange_iff (t : Tariff) : t.inRange = true ↔ t.flagFall ≤ 99999 ∧ t.d0 ≤ 20000 ∧ t.t0 ≤ 36000 ∧ 1 ≤ t.s2 ∧ t.s2 ≤ 100
    ∧ 1 ≤ t.s3 ∧ t.s3 ≤ 100 ∧ bandsInRange t.bands = true := by
  simp [Tariff.inRange, and_assoc]

theorem tariffAt_bytes (id : Nat) {t : Tariff} (inRange : t.inRange = true) : tariffAt (t.bytes id) = some t := by
  obtain ⟨flagFall, d0, t0, -, s2, -, s3, bands⟩ := (tariff_inRange_iff t).1 inRange
  obtain ⟨few, starts, ranges⟩ := bandsInRange_bounds bands
  have fields : tariffAt (t.bytes id) = (onOff (flagByte t.manual)).bind fun manual =>
      (bandsAt (BitVec.ofNat 8 t.bands.length).toNat (t.bands.flatMap Band.bytes)).bind fun bands =>
      some ⟨t.kind, manual, beNat (be4 t.flagFall), beNat (be2 t.d0), beNat (be2 t.t0), (BitVec.ofNat 8 t.s2).toNat,
        (BitVec.ofNat 8 t.s3).toNat, bands⟩ := by
    have kind : byteAt (t.bytes id) 1 = t.kind.byte := rfl
    unfold tariffAt
    rw [kind]
    cases t.kind <;> rfl
  rw [fields, onOff_flagByte, byte_toNat (by omega), bandsAt_bytes starts ranges, beNat_be4 (by omega),
    beNat_be2 (by omega), beNat_be2 (by omega), byte_toNat (by omega), byte_toNat (by omega)]
  rfl

/-- A tariff block whose content has the length its band count gives and reads as a record in range (R53, R64). -/
theorem readBlock_tariff (flags : Byte) {content : List Byte} {t : Tariff} (size : content.length = 14 + 11 * (byteAt content 13).toNat)
    (place : placeId (byteAt content 0).toNat = true) (record : tariffAt content = some t) (inRange : t.inRange = true) :
    readBlock (1 :: flags :: content) = .ok (.tariff (byteAt content 0).toNat t) := by
  have steps : readBlock (1 :: flags :: content) =
      if content.length < 14 || content.length != 14 + 11 * (byteAt content 13).toNat then .error .range
      else if !placeId (byteAt content 0).toNat then .error .noSuch
      else blockOf (.tariff (byteAt content 0).toNat) ((tariffAt content).filter Tariff.inRange) := rfl
  have kept : (some t).filter Tariff.inRange = some t := by simp [inRange]
  rw [steps, if_neg (by simp; omega), if_neg (by simp [place]), record, kept]
  rfl

theorem readBlock_tariffBytes (flags : Byte) {id : Nat} {t : Tariff} (one : 1 ≤ id) (eight : id ≤ 8) (inRange : t.inRange = true) :
    readBlock (1 :: flags :: t.bytes id) = .ok (.tariff id t) := by
  obtain ⟨few, -, -⟩ := bandsInRange_bounds ((tariff_inRange_iff t).1 inRange).2.2.2.2.2.2.2
  have place : (byteAt (t.bytes id) 0).toNat = id := byte_toNat (by omega)
  have count : (byteAt (t.bytes id) 13).toNat = t.bands.length := byte_toNat (by omega)
  have size : (t.bytes id).length = 14 + (t.bands.flatMap Band.bytes).length := by simp [Tariff.bytes, be1, be2, be4]; omega
  have read := readBlock_tariff flags (by rw [size, count, flatMap_bytes_length]) (by rw [place]; exact (placeId_iff id).2 ⟨one, eight⟩)
    (tariffAt_bytes id inRange) inRange
  rwa [place] at read

/-! ### Calendar entries and extras -/

theorem calendarAt_bytes (i : Nat) {e : CalendarEntry} (days : e.weekdays ≠ 0) (start : e.start ≤ 1439) (one : 1 ≤ e.tariff)
    (eight : e.tariff ≤ 8) : calendarAt (e.bytes i) = some e := by
  have fields : calendarAt (e.bytes i) =
      if !(e.weekdays.setWidth 8).getLsbD 7 && (e.weekdays.setWidth 8).setWidth 7 != 0 && decide (beNat (be2 e.start) ≤ 1439)
        && placeId (BitVec.ofNat 8 e.tariff).toNat
      then some ⟨(e.weekdays.setWidth 8).setWidth 7, beNat (be2 e.start), (BitVec.ofNat 8 e.tariff).toNat⟩ else none := rfl
  have narrow : (e.weekdays.setWidth 8).setWidth 7 = e.weekdays := by simp
  have clear : (e.weekdays.setWidth 8).getLsbD 7 = false := by simp
  have day : (e.weekdays != 0) = true := bne_iff_ne.2 days
  rw [fields, narrow, clear, day, beNat_be2 (by omega), byte_toNat (by omega)]
  exact if_pos (by simp [start, (placeId_iff e.tariff).2 ⟨one, eight⟩])

theorem readBlock_calendarBytes (flags : Byte) {i : Nat} {e : CalendarEntry} (place : i ≤ 31) (days : e.weekdays ≠ 0)
    (start : e.start ≤ 1439) (one : 1 ≤ e.tariff) (eight : e.tariff ≤ 8) :
    readBlock (2 :: flags :: e.bytes i) = .ok (.calendar i e) := by
  have steps : readBlock (2 :: flags :: e.bytes i) =
      if 31 < (BitVec.ofNat 8 i).toNat then .error .noSuch else blockOf (.calendar (BitVec.ofNat 8 i).toNat) (calendarAt (e.bytes i)) := rfl
  rw [steps, byte_toNat (by omega), if_neg (by omega), calendarAt_bytes i days start one eight]
  rfl

theorem extraAt_bytes (id : Nat) {e : ExtraEntry} (amount : e.amount ≤ 50000) (one : 1 ≤ e.maxCount) (nine : e.maxCount ≤ 9) :
    extraAt (e.bytes id) = some e := by
  have after : byteAt (e.bytes id) 6 = flagByte e.afterStop := rfl
  have money : numAt (e.bytes id) 1 4 = beNat (be4 e.amount) := rfl
  have most : byteAt (e.bytes id) 5 = BitVec.ofNat 8 e.maxCount := rfl
  unfold extraAt
  rw [after, onOff_flagByte, money, most, beNat_be4 (by omega), byte_toNat (by omega)]
  exact if_pos (by simp [amount, one, nine])

theorem readBlock_extraBytes (flags : Byte) {id : Nat} {e : ExtraEntry} (first : 1 ≤ id) (last : id ≤ 8) (amount : e.amount ≤ 50000)
    (one : 1 ≤ e.maxCount) (nine : e.maxCount ≤ 9) : readBlock (3 :: flags :: e.bytes id) = .ok (.extra id e) := by
  have steps : readBlock (3 :: flags :: e.bytes id) =
      if !placeId (BitVec.ofNat 8 id).toNat then .error .noSuch else blockOf (.extra (BitVec.ofNat 8 id).toNat) (extraAt (e.bytes id)) := rfl
  rw [steps, byte_toNat (by omega), if_neg (by simp [(placeId_iff id).2 ⟨first, last⟩]), extraAt_bytes id amount one nine]
  rfl

/-! ### Withdrawals -/

theorem readBlock_withdrawTariff (flags : Byte) {id : Nat} (one : 1 ≤ id) (eight : id ≤ 8) :
    readBlock [4, flags, BitVec.ofNat 8 id] = .ok (.withdrawTariff id) := by
  have steps : readBlock [4, flags, BitVec.ofNat 8 id] =
      if !placeId (BitVec.ofNat 8 id).toNat then .error .noSuch else .ok (.withdrawTariff (BitVec.ofNat 8 id).toNat) := rfl
  rw [steps, byte_toNat (by omega), if_neg (by simp [(placeId_iff id).2 ⟨one, eight⟩])]

theorem readBlock_withdrawExtra (flags : Byte) {id : Nat} (one : 1 ≤ id) (eight : id ≤ 8) :
    readBlock [6, flags, BitVec.ofNat 8 id] = .ok (.withdrawExtra id) := by
  have steps : readBlock [6, flags, BitVec.ofNat 8 id] =
      if !placeId (BitVec.ofNat 8 id).toNat then .error .noSuch else .ok (.withdrawExtra (BitVec.ofNat 8 id).toNat) := rfl
  rw [steps, byte_toNat (by omega), if_neg (by simp [(placeId_iff id).2 ⟨one, eight⟩])]

theorem readBlock_withdrawCalendar (flags : Byte) {i : Nat} (place : i ≤ 31) :
    readBlock [5, flags, BitVec.ofNat 8 i] = .ok (.withdrawCalendar i) := by
  have steps : readBlock [5, flags, BitVec.ofNat 8 i] =
      if 31 < (BitVec.ofNat 8 i).toNat then .error .noSuch else .ok (.withdrawCalendar (BitVec.ofNat 8 i).toNat) := rfl
  rw [steps, byte_toNat (by omega), if_neg (by omega)]

/-! ### The statement -/

/-- Settles O29: each kind of block, by the fields of its record read one by one. -/
theorem blocksReadBackAsTheyAreLaidOut : Obligations.BlocksReadBackAsTheyAreLaidOut := fun flags =>
  ⟨fun _ _ one eight inRange => readBlock_tariffBytes flags one eight inRange,
    fun _ _ place days start one eight => readBlock_calendarBytes flags place days start one eight,
    fun _ _ first last amount one nine => readBlock_extraBytes flags first last amount one nine,
    fun _ one eight => ⟨readBlock_withdrawTariff flags one eight, readBlock_withdrawExtra flags one eight⟩,
    fun _ place => readBlock_withdrawCalendar flags place, rfl⟩

end Sys2Proof.Machine
end

section
/-! The Tariff Store's chains, places and activation (R51, R63 to R71, R185), with their statements. -/

namespace Sys2Proof.Machine

/-! ### A block answered -/

/-- LOAD and COMPARE frames with a payload of a length a frame can have are requests like any other (R175). -/
theorem requestBlock_done {s t : State} {p : PortId} {k : Kind} {tag : Byte} {pl : List Byte} {owner : Owner} {c : Code}
    {items : List Byte} (ready : Ready s p) (offered : k.offered p = true) (short : pl.length ≤ 240) (work : owner s = (t, .of c items)) :
    requestBlock p k tag pl owner s = .next (t.replied p k tag c items) := by
  unfold requestBlock
  rw [if_pos (show pl.length ≤ maxPayload from short), request_ready ready offered, work]
  rfl

/-- A block answered on a port: the chain kept without a result, or closed with it (R63). -/
theorem requestBlock_answered {s u : State} {p : PortId} {k : Kind} {tag : Byte} {pl : List Byte} {owner : Owner} {c : Chain} {code : Code}
    {result : List Byte} (ready : Ready s p) (offered : k.offered p = true) (short : pl.length ≤ 240)
    (work : owner s = answerBlock pl c code result u) :
    requestBlock p k tag pl owner s = .next (if moreFollows pl
      then { u with tariffs := { u.tariffs with chain := c } }.replied p k tag code []
      else { u with tariffs := { u.tariffs with chain := Chain.cleared } }.replied p k tag code result) := by
  unfold answerBlock at work
  split
  · rename_i more
    exact requestBlock_done ready offered short (work.trans (if_pos more))
  · rename_i last
    exact requestBlock_done ready offered short (work.trans (if_neg last))

/-! ### LOAD -/

/-- The checks of LOAD hold: the block is taken (R63, R66). -/
theorem loadOwner_takes {pl : List Byte} {s : State} (noActivation : s.tariffs.activation = none) (idle : s.partClear = .idle)
    (noCompare : s.tariffs.chain.kind ≠ some .compare) : loadOwner pl s = loadBlock pl (s.tariffs.chain.begun .load) s :=
  checked_ok (by simp [firstRefusal, noActivation, idle, noCompare])

theorem loadOwner_storeBusy {pl : List Byte} {s : State} (busy : s.tariffs.activation.isSome ∨ s.partClear ≠ .idle) :
    loadOwner pl s = (s, .refuse .storeBusy) := by
  refine checked_no ?_
  rcases busy with busy | busy
  · simp [firstRefusal, Option.isNone_eq_false_iff.2 busy]
  · simp [firstRefusal, busy]

theorem loadOwner_notPermitted {pl : List Byte} {s : State} (noActivation : s.tariffs.activation = none) (idle : s.partClear = .idle)
    (compare : s.tariffs.chain.kind = some .compare) : loadOwner pl s = (s, .refuse .notPermitted) :=
  checked_no (by simp [firstRefusal, noActivation, idle, compare])

theorem loadBlock_valid {pl : List Byte} {c : Chain} {s : State} {b : Block} {t : TariffSet} (going : c.stopped = false)
    (read : readBlock pl = .ok b) (applied : applyBlock s.tariffs.staging b = .ok t) :
    loadBlock pl c s = answerBlock pl c.succeed .ok c.succeed.loadResult { s with tariffs := { s.tariffs with staging := t } } := by
  have both : (readBlock pl).bind (applyBlock s.tariffs.staging) = .ok t := by
    rw [read]
    exact applied
  unfold loadBlock
  rw [if_neg (by simp [going]), both]

theorem loadBlock_failing {pl : List Byte} {c : Chain} {s : State} {code : Code} (going : c.stopped = false)
    (failing : (readBlock pl).bind (applyBlock s.tariffs.staging) = .error code) :
    loadBlock pl c s = answerBlock pl (c.fail (stopOnError pl)) code (c.fail (stopOnError pl)).loadResult s := by
  unfold loadBlock
  rw [if_neg (by simp [going]), failing]

theorem loadBlock_stopped {pl : List Byte} {c : Chain} {s : State} (stopped : c.stopped = true) :
    loadBlock pl c s = answerBlock pl c.skip .skipped c.skip.loadResult s := by
  unfold loadBlock
  rw [if_pos stopped]

/-- A failing block of a chain that goes on stops it with stop-on-error (R65). -/
theorem fail_going {c : Chain} (going : c.stopped = false) (stop : Bool) :
    c.fail stop = { c with failed := c.failed + 1, stopped := stop } := by
  unfold Chain.fail
  rw [going, Bool.false_or]

/-- Settles O26: the checks of R66, then the block by whether the chain is stopped, whether it reads and whether it applies. -/
theorem loadTakesBlocksIntoItsChain : Obligations.LoadTakesBlocksIntoItsChain := by
  intro tag pl s ready short
  refine ⟨fun noActivation idle noCompare => ?_, fun busy => requestBlock_done ready rfl short (loadOwner_storeBusy busy),
    fun noActivation idle compare => requestBlock_done ready rfl short (loadOwner_notPermitted noActivation idle compare)⟩
  have takes := loadOwner_takes (pl := pl) noActivation idle noCompare
  refine ⟨fun b st going read applied => ?_, fun code going failing => ?_, fun stopped => ?_⟩
  · exact requestBlock_answered ready rfl short (takes.trans (loadBlock_valid going read applied))
  · have failed := loadBlock_failing (c := s.tariffs.chain.begun .load) going failing
    rw [fail_going (c := s.tariffs.chain.begun .load) going] at failed
    exact requestBlock_answered ready rfl short (takes.trans failed)
  · exact requestBlock_answered ready rfl short (takes.trans (loadBlock_stopped stopped))

/-! ### COMPARE -/

theorem compareOwner_takes {pl : List Byte} {s : State} (noLoad : s.tariffs.chain.kind ≠ some .load) :
    compareOwner pl s = compareBlock pl (s.tariffs.chain.begun .compare) s :=
  checked_ok (by simp [firstRefusal, noLoad])

theorem compareOwner_notPermitted {pl : List Byte} {s : State} (load : s.tariffs.chain.kind = some .load) :
    compareOwner pl s = (s, .refuse .notPermitted) :=
  checked_no (by simp [firstRefusal, load])

theorem compareBlock_valid {pl : List Byte} {c : Chain} {s : State} {b : Block} (going : c.stopped = false) (read : readBlock pl = .ok b) :
    compareBlock pl c s = answerBlock pl (c.compared (blockDiffers s.tariffs.staging b)) .ok
      (c.compared (blockDiffers s.tariffs.staging b)).compareResult s := by
  unfold compareBlock
  rw [if_neg (by simp [going]), read]

theorem compareBlock_failing {pl : List Byte} {c : Chain} {s : State} {code : Code} (going : c.stopped = false)
    (failing : readBlock pl = .error code) :
    compareBlock pl c s = answerBlock pl (c.fail (stopOnError pl)).differ code (c.fail (stopOnError pl)).differ.compareResult s := by
  unfold compareBlock
  rw [if_neg (by simp [going]), failing]

theorem compareBlock_stopped {pl : List Byte} {c : Chain} {s : State} (stopped : c.stopped = true) :
    compareBlock pl c s = answerBlock pl c.skip .skipped c.skip.compareResult s := by
  unfold compareBlock
  rw [if_pos stopped]

/-- The first block that differs is recorded (R67). -/
theorem compared_eq (c : Chain) (differs : Bool) : c.compared differs =
    { c with ok := c.ok + 1, firstDiff := if differs then some (c.firstDiff.getD c.blocks) else c.firstDiff } := by
  cases differs <;> rfl

/-- A record block differs when its place holds none or another. -/
theorem record_differs_iff {α : Type} [DecidableEq α] (place : Option α) (x : α) :
    (place != some x) = true ↔ place = none ∨ ∃ y, place = some y ∧ y ≠ x := by
  cases place <;> simp

theorem anyPresent_iff {α : Type} (xs : List (Option α)) : xs.any Option.isSome = true ↔ ∃ x, some x ∈ xs := by
  simp only [List.any_eq_true, Option.isSome_iff_exists]
  exact ⟨fun ⟨_, mem, x, eq⟩ => ⟨x, eq ▸ mem⟩, fun ⟨x, mem⟩ => ⟨_, mem, x, rfl⟩⟩

theorem hasAny_iff (t : TariffSet) : t.hasAny = true ↔ (∃ x, some x ∈ t.tariffs) ∨ (∃ x, some x ∈ t.calendar) ∨ ∃ x, some x ∈ t.extras := by
  simp only [TariffSet.hasAny, Bool.or_eq_true, anyPresent_iff, or_assoc]

theorem present_iff {α : Type} (place : Option α) : place.isSome = true ↔ place ≠ none := Option.isSome_iff_ne_none

theorem compareResult_differs {c : Chain} {n : Nat} (first : c.firstDiff = some n) : c.compareResult =
    1 :: be4 n ++ 1 :: be4 (c.blocks - n) ++ [0, 0, 0, 0, 0] ++ [0, 0, 0, 0, 0] ++ [0, 0, 0, 0, 0] := by
  unfold Chain.compareResult
  rw [first]
  rfl

theorem compareResult_same {c : Chain} (noDiff : c.firstDiff = none) : c.compareResult =
    [0, 0, 0, 0, 0] ++ [0, 0, 0, 0, 0] ++ 1 :: be4 c.ok ++ 1 :: be4 c.failed ++ 1 :: be4 c.skipped := by
  unfold Chain.compareResult
  rw [noDiff]
  rfl

/-- Settles O27: the block by whether the chain is stopped and whether it reads; then the table of R67 and the closing result. -/
theorem compareChangesOnlyItsChain : Obligations.CompareChangesOnlyItsChain := by
  refine ⟨fun tag pl s ready short => ⟨fun noLoad => ?_, fun load =>
    requestBlock_done ready rfl short (compareOwner_notPermitted load)⟩, fun t c => ?_⟩
  · have takes := compareOwner_takes (pl := pl) noLoad
    refine ⟨fun b c going read hc => ?_, fun code c going failing hc => ?_, fun c stopped hc => ?_⟩
    · have compared := compareBlock_valid (c := s.tariffs.chain.begun .compare) (s := s) going read
      rw [compared_eq] at compared
      subst hc
      exact requestBlock_answered ready rfl short (takes.trans compared)
    · have failed := compareBlock_failing (c := s.tariffs.chain.begun .compare) (s := s) going failing
      rw [fail_going (c := s.tariffs.chain.begun .compare) going] at failed
      subst hc
      exact requestBlock_answered ready rfl short (takes.trans failed)
    · subst hc
      exact requestBlock_answered ready rfl short (takes.trans (compareBlock_stopped stopped))
  · exact ⟨fun _ => record_differs_iff _, fun _ => record_differs_iff _, fun _ => record_differs_iff _, fun _ => present_iff _,
      fun _ => present_iff _, fun _ => present_iff _, hasAny_iff t, fun _ => compareResult_differs, compareResult_same⟩

/-! ### Places written -/

/-- What a place numbered from 0 reads after one is set. -/
theorem place_set {α : Type} {xs : List (Option α)} {i : Nat} (x : Option α) (lt : i < xs.length) :
    (xs.set i x).getD i none = x ∧ ∀ j, j ≠ i → (xs.set i x).getD j none = xs.getD j none := by
  simp only [List.getD_eq_getElem?_getD]
  exact ⟨by rw [List.getElem?_set_self lt]; rfl, fun j ne => by rw [List.getElem?_set_ne (Ne.symm ne)]⟩

/-- What a place numbered from 1 reads after one is set. -/
theorem place_set_id {α : Type} {xs : List (Option α)} {id : Nat} (x : Option α) (one : 1 ≤ id) (le : id ≤ xs.length) :
    (if id = 0 then none else (xs.set (id - 1) x).getD (id - 1) none) = x
      ∧ ∀ n, n ≠ id → (if n = 0 then none else (xs.set (id - 1) x).getD (n - 1) none) = if n = 0 then none else xs.getD (n - 1) none := by
  obtain ⟨same, others⟩ := place_set x (show id - 1 < xs.length by omega)
  refine ⟨by rw [if_neg (by omega), same], fun n ne => ?_⟩
  by_cases zero : n = 0
  · rw [if_pos zero, if_pos zero]
  · rw [if_neg zero, if_neg zero, others (n - 1) (by omega)]

/-- A place that reads present is one of the set's. -/
theorem present_lt {α : Type} {xs : List (Option α)} {i : Nat} (present : (xs.getD i none).isSome = true) : i < xs.length := by
  by_contra beyond
  rw [List.getD_eq_default _ _ (Nat.not_lt.1 beyond)] at present
  cases present

theorem present_id {α : Type} {xs : List (Option α)} {id : Nat} (present : (if id = 0 then none else xs.getD (id - 1) none).isSome = true) :
    1 ≤ id ∧ id ≤ xs.length := by
  by_cases zero : id = 0
  · rw [if_pos zero] at present
    cases present
  · rw [if_neg zero] at present
    have lt := present_lt present
    omega

/-- A tariff place put reads as put, and every other as before (R64). -/
theorem tariff_putTariff (t : TariffSet) {id : Nat} (x : Option Tariff) (one : 1 ≤ id) (le : id ≤ t.tariffs.length) :
    (t.putTariff id x).tariff id = x ∧ ∀ n, n ≠ id → (t.putTariff id x).tariff n = t.tariff n := place_set_id x one le

theorem entry_putEntry (t : TariffSet) {i : Nat} (x : Option CalendarEntry) (lt : i < t.calendar.length) :
    (t.putEntry i x).entry i = x ∧ ∀ n, n ≠ i → (t.putEntry i x).entry n = t.entry n := place_set x lt

theorem extra_putExtra (t : TariffSet) {id : Nat} (x : Option ExtraEntry) (one : 1 ≤ id) (le : id ≤ t.extras.length) :
    (t.putExtra id x).extra id = x ∧ ∀ n, n ≠ id → (t.putExtra id x).extra n = t.extra n := place_set_id x one le

/-- The places a valid block writes (R51, R64). -/
theorem applyBlock_places (t : TariffSet) (shaped : t.shaped) :
      (∀ id x, 1 ≤ id → id ≤ 8 → ∃ u, applyBlock t (.tariff id x) = .ok u ∧ u.tariff id = some x
        ∧ (∀ n, n ≠ id → u.tariff n = t.tariff n) ∧ u.calendar = t.calendar ∧ u.extras = t.extras)
      ∧ (∀ i x, i ≤ 31 → ∃ u, applyBlock t (.calendar i x) = .ok u ∧ u.entry i = some x
        ∧ (∀ n, n ≠ i → u.entry n = t.entry n) ∧ u.tariffs = t.tariffs ∧ u.extras = t.extras)
      ∧ (∀ id x, 1 ≤ id → id ≤ 8 → ∃ u, applyBlock t (.extra id x) = .ok u ∧ u.extra id = some x
        ∧ (∀ n, n ≠ id → u.extra n = t.extra n) ∧ u.tariffs = t.tariffs ∧ u.calendar = t.calendar) := by
  obtain ⟨tariffs, calendar, extras⟩ := shaped
  refine ⟨fun id x one eight => ⟨_, rfl, ?_⟩, fun i x place => ⟨_, rfl, ?_⟩, fun id x one eight => ⟨_, rfl, ?_⟩⟩
  · obtain ⟨here, others⟩ := tariff_putTariff t (some x) one (by omega)
    exact ⟨here, others, rfl, rfl⟩
  · obtain ⟨here, others⟩ := entry_putEntry t (some x) (show i < t.calendar.length by omega)
    exact ⟨here, others, rfl, rfl⟩
  · obtain ⟨here, others⟩ := extra_putExtra t (some x) one (by omega)
    exact ⟨here, others, rfl, rfl⟩

/-- The places a valid withdrawal empties (R64). -/
theorem applyBlock_withdrawals (t : TariffSet) :
      (∀ id, (t.tariff id).isSome → ∃ u, applyBlock t (.withdrawTariff id) = .ok u ∧ u.tariff id = none
        ∧ (∀ n, n ≠ id → u.tariff n = t.tariff n) ∧ u.calendar = t.calendar ∧ u.extras = t.extras)
      ∧ (∀ i, (t.entry i).isSome → ∃ u, applyBlock t (.withdrawCalendar i) = .ok u ∧ u.entry i = none
        ∧ (∀ n, n ≠ i → u.entry n = t.entry n) ∧ u.tariffs = t.tariffs ∧ u.extras = t.extras)
      ∧ (∀ id, (t.extra id).isSome → ∃ u, applyBlock t (.withdrawExtra id) = .ok u ∧ u.extra id = none
        ∧ (∀ n, n ≠ id → u.extra n = t.extra n) ∧ u.tariffs = t.tariffs ∧ u.calendar = t.calendar) := by
  refine ⟨fun id present => ⟨_, if_pos present, ?_⟩, fun i present => ⟨_, if_pos present, ?_⟩, fun id present => ⟨_, if_pos present, ?_⟩⟩
  · obtain ⟨one, le⟩ := present_id present
    obtain ⟨here, others⟩ := tariff_putTariff t none one le
    exact ⟨here, others, rfl, rfl⟩
  · obtain ⟨here, others⟩ := entry_putEntry t none (present_lt present)
    exact ⟨here, others, rfl, rfl⟩
  · obtain ⟨one, le⟩ := present_id present
    obtain ⟨here, others⟩ := extra_putExtra t none one le
    exact ⟨here, others, rfl, rfl⟩

/-! ### READ_TARIFF -/

theorem readTariffOwner_range {set : Byte} (item place : Byte) (s : State) (beyond : 1 < set.toNat) :
    readTariffOwner set item place s = (s, .refuse .range) := by
  have noSet : s.tariffs.setOf set = none := by
    unfold TariffStore.setOf
    rw [if_neg (by rintro rfl; simp at beyond), if_neg (by rintro rfl; simp at beyond)]
  unfold readTariffOwner
  rw [noSet]

theorem setOf_eq {x : TariffStore} {set : Byte} {t : TariffSet} (h : set = 0 ∧ t = x.active ∨ set = 1 ∧ t = x.staging) :
    x.setOf set = some t := by
  rcases h with ⟨rfl, rfl⟩ | ⟨rfl, rfl⟩ <;> rfl

/-- An item of a set that is there is given; one that is not is refused with its code (R71). -/
theorem exec_readTariff {tag set item place : Byte} {s : State} {t : TariffSet} {c : Code} {items : List Byte} (ready : Ready s .fleet)
    (named : s.tariffs.setOf set = some t)
    (found : s.tariffs.item t item place = .ok items ∧ c = .ok ∨ s.tariffs.item t item place = .error c ∧ items = []) :
    exec (.readTariff .fleet tag set item place) s = .next (s.replied .fleet .readTariff tag c items) := by
  have work : readTariffOwner set item place s = (s, .of c items) := by
    unfold readTariffOwner
    rw [named]
    dsimp only
    rcases found with ⟨found, rfl⟩ | ⟨found, rfl⟩ <;> (rw [found]; rfl)
  show request .fleet .readTariff tag _ s = _
  rw [request_ready ready rfl, work]
  rfl

theorem item_beyond (x : TariffStore) (t : TariffSet) {item : Byte} (place : Byte) (beyond : 4 < item.toNat) :
    x.item t item place = .error .range := by
  have other : ∀ n : Byte, n.toNat ≤ 4 → item ≠ n := by
    rintro n le rfl
    omega
  unfold TariffStore.item
  dsimp only
  rw [if_neg (other 0 (by decide)), if_neg (other 1 (by decide)), if_neg (other 2 (by decide)), if_neg (other 3 (by decide)),
    if_neg (other 4 (by decide))]

theorem item_tariff (x : TariffStore) (t : TariffSet) (place : Byte) : x.item t 0 place =
    if placeId place.toNat then .ok (optItem 14 (Tariff.bytes place.toNat) (t.tariff place.toNat)) else .error .noSuch := rfl

theorem item_calendar (x : TariffStore) (t : TariffSet) (place : Byte) : x.item t 1 place =
    if place.toNat ≤ 31 then .ok (optItem 5 (CalendarEntry.bytes place.toNat) (t.entry place.toNat)) else .error .noSuch := rfl

theorem item_extra (x : TariffStore) (t : TariffSet) (place : Byte) : x.item t 2 place =
    if placeId place.toNat then .ok (optItem 7 (ExtraEntry.bytes place.toNat) (t.extra place.toNat)) else .error .noSuch := rfl

theorem placeId_not {n : Nat} (outside : n = 0 ∨ 8 < n) : ¬placeId n = true := by
  rw [placeId_iff]
  omega

/-- Settles O28: the places by the list written, the refusals by the place read, READ_TARIFF by its item. -/
theorem tariffSetsAreWrittenAndShown : Obligations.TariffSetsAreWrittenAndShown := by
  refine ⟨fun t shaped => ?_, fun tag set item place s ready beyond => ?_, fun tag set place t s ready named => ?_⟩
  · obtain ⟨tariff, entry, extra⟩ := applyBlock_places t shaped
    obtain ⟨noTariff, noEntry, noExtra⟩ := applyBlock_withdrawals t
    exact ⟨tariff, entry, extra, noTariff, noEntry, noExtra, fun n empty => if_neg (by simp [empty]), fun n empty => if_neg (by simp [empty]),
      fun n empty => if_neg (by simp [empty]), rfl⟩
  · exact request_refused ready rfl (readTariffOwner_range item place s beyond)
  · have named := setOf_eq named
    refine ⟨fun one eight => ⟨?_, ?_⟩, fun inCalendar => ?_, exec_readTariff ready named (.inl ⟨rfl, rfl⟩),
      exec_readTariff ready named (.inl ⟨rfl, rfl⟩), fun outside => ⟨?_, ?_⟩, fun beyond => ?_,
      fun item beyond => exec_readTariff ready named (.inr ⟨item_beyond _ _ _ beyond, rfl⟩)⟩
    · refine exec_readTariff ready named (.inl ⟨(item_tariff _ _ _).trans ((if_pos ((placeId_iff _).2 ⟨one, eight⟩)).trans ?_), rfl⟩)
      cases t.tariff place.toNat <;> rfl
    · refine exec_readTariff ready named (.inl ⟨(item_extra _ _ _).trans ((if_pos ((placeId_iff _).2 ⟨one, eight⟩)).trans ?_), rfl⟩)
      cases t.extra place.toNat <;> rfl
    · refine exec_readTariff ready named (.inl ⟨(item_calendar _ _ _).trans ((if_pos inCalendar).trans ?_), rfl⟩)
      cases t.entry place.toNat <;> rfl
    · exact exec_readTariff ready named (.inr ⟨(item_tariff _ _ _).trans (if_neg (placeId_not outside)), rfl⟩)
    · exact exec_readTariff ready named (.inr ⟨(item_extra _ _ _).trans (if_neg (placeId_not outside)), rfl⟩)
    · exact exec_readTariff ready named (.inr ⟨(item_calendar _ _ _).trans (if_neg (Nat.not_le.2 beyond)), rfl⟩)

/-! ### Activation -/

theorem activateOwner_accepted {s : State} (idle : s.storeBusy = false) (closed : s.shift.state = .closed)
    (noChain : s.tariffs.chain.kind = none) : activateOwner s =
      ({ s with tariffs := { s.tariffs with activation := some s.tariffs.staging } }, .of .accepted []) :=
  checked_ok (by simp [firstRefusal, idle, closed, noChain])

/-- The state of an activation that completes, before its record and its notice (R69). -/
def State.brought (s : State) (new : TariffSet) : State :=
  { s with tariffs := { s.tariffs with
    active := new
    tariffSection := s.tariffs.tariffSection.write new
    activation := none
    activationOutcome := .done } }

theorem activated_eq (s : State) (new : TariffSet) : s.activated new =
    (((s.brought new).handOver (.activation (changedIds s.tariffs.active new))).notify .fleet .activationDone).fileOn := rfl

theorem activated_tariffs (s : State) (new : TariffSet) : (s.activated new).tariffs = (s.brought new).tariffs := by
  have filed : (s.activated new).beyondFiling = (s.brought new).beyondFiling := by
    rw [activated_eq, fileOn_beyondFiling, notify_beyondFiling, handOver_beyondFiling]
  have tariffs := congrArg State.tariffs filed
  exact tariffs

/-- The ACTIVATION record joins the queue when a slot is free and no recovery runs (R69, R120). -/
theorem handOver_activation (s : State) (changed : List Nat) : (s.handOver (.activation changed)).journal.queue =
    s.journal.queue ++ if 1 ≤ s.journal.free ∧ s.partClear ≠ .recovering then [s.formRecord (.activation changed)] else [] := by
  have accepts : s.acceptsRecord (.activation changed) = true ↔ 1 ≤ s.journal.free ∧ s.partClear ≠ .recovering := by
    simp [State.acceptsRecord, RecordBody.reserved]
  unfold State.handOver
  by_cases room : 1 ≤ s.journal.free ∧ s.partClear ≠ .recovering
  · rw [if_pos (accepts.2 room), if_pos room, updateLow_journal]
  · rw [if_neg (mt accepts.1 room), if_neg room, List.append_nil]

/-- With a journal that can go on filing, the Fleet port is told and the record stands at the queue's end (R69). -/
theorem activated_told (s : State) (new : TariffSet) (steady : s.journal.steady) :
    ((s.activated new).port .fleet).holds .activationDone = true
      ∧ (s.activated new).journal.queue = s.journal.queue ++ if 1 ≤ s.journal.free ∧ s.partClear ≠ .recovering
        then [⟨s.shift.number, s.clock, .activation (changedIds s.tariffs.active new)⟩] else [] := by
  obtain ⟨x, hx⟩ : ∃ x, x = ((s.brought new).handOver (.activation (changedIds s.tariffs.active new))).notify .fleet .activationDone :=
    ⟨_, rfl⟩
  have mild : Mild (s.brought new) x := hx ▸ (mild_handOver _ _).trans (mild_notify _ _ _)
  obtain ⟨flight, filed, -⟩ := fileOn_steady x (mild.j.steady.2 steady)
  have told : (x.port .fleet).holds .activationDone = true := by
    rw [hx]
    exact add_self _ _
  have queued := handOver_activation (s.brought new) (changedIds s.tariffs.active new)
  have same : x.journal = ((s.brought new).handOver (.activation (changedIds s.tariffs.active new))).journal := by
    rw [hx]
    rfl
  rw [← same] at queued
  rw [activated_eq, ← hx, filed]
  exact ⟨told, queued⟩

/-- Settles O30: the acceptance by its checks, the completion by the set brought into use and the record handed over, the failure. -/
theorem activationBringsTheStagingSetIntoUse : Obligations.ActivationBringsTheStagingSetIntoUse := by
  refine fun tag s => ⟨fun ready noActivation noWrite idle closed noChain => ?_, fun new run writing => ⟨?_, ?_⟩⟩
  · have free : s.storeBusy = false := by simp [State.storeBusy, noActivation, noWrite, idle]
    show request .fleet .activate tag activateOwner s = _
    rw [request_ready ready rfl, activateOwner_accepted free closed noChain]
    rfl
  · have completes : s.activationDone = s.activated new := by
      unfold State.activationDone
      rw [writing]
    have tariffs := activated_tariffs s new
    refine ⟨s.activated new, congrArg Host.Outcome.next ((whenRunning_eq run _).trans completes), ?_⟩
    rw [tariffs]
    exact ⟨rfl, rfl, rfl, write_current _ _, rfl, rfl, rfl, activated_told s new⟩
  · refine congrArg Host.Outcome.next ((whenRunning_eq run _).trans ?_)
    unfold State.activationFailed
    rw [writing]
    rfl

end Sys2Proof.Machine
end

section
/-! A tick on the sign, the lines and the hires (R35 to R38, R136, R137, R140, R156, R159, R166, R186): each unit's work said once, then
what the rest of the tick leaves of it. -/

namespace Sys2Proof.Machine

/-! ### The sign -/

/-- Every lamp keeps its misses and its fault. -/
def SameChecks (l m : Lamps) : Prop := ∀ i, (m.get i).misses = (l.get i).misses ∧ (m.get i).fault = (l.get i).fault

/-- Every front lamp is as it was but for its goal. -/
def SameFront (l m : Lamps) : Prop := ∀ i, i ≠ .alarm → m.get i = { l.get i with goal := (m.get i).goal }

theorem SameChecks.refl (l : Lamps) : SameChecks l l := fun _ => ⟨rfl, rfl⟩

theorem SameChecks.trans {l m n : Lamps} (h : SameChecks l m) (g : SameChecks m n) : SameChecks l n := fun i =>
  ⟨(g i).1.trans (h i).1, (g i).2.trans (h i).2⟩

theorem SameFront.refl (l : Lamps) : SameFront l l := fun _ _ => rfl

theorem SameFront.trans {l m n : Lamps} (h : SameFront l m) (g : SameFront m n) : SameFront l n := fun i front => by
  rw [g i front, h i front]

theorem SameFront.level {l m : Lamps} (h : SameFront l m) {i : LampId} (front : i ≠ .alarm) : (m.get i).level = (l.get i).level := by
  rw [h i front]

/-- The sign is as it was but for its override, its target, the goals, the flash and the level of the ALARM lamp. -/
structure SignHeld (x y : Sign) : Prop where
  test : y.test = x.test
  night : y.night = x.night
  disagree : y.disagree = x.disagree
  checks : SameChecks x.lamps y.lamps
  front : SameFront x.lamps y.lamps

theorem SignHeld.refl (x : Sign) : SignHeld x x := ⟨rfl, rfl, rfl, SameChecks.refl _, SameFront.refl _⟩

theorem SignHeld.trans {x y z : Sign} (h : SignHeld x y) (g : SignHeld y z) : SignHeld x z :=
  ⟨g.test.trans h.test, g.night.trans h.night, g.disagree.trans h.disagree, h.checks.trans g.checks, h.front.trans g.front⟩

theorem aim_held (x : Sign) (t : Target) (full : Nat) : SignHeld x (x.aim t full) := by
  unfold Sign.aim
  split
  · exact ⟨rfl, rfl, rfl, SameChecks.refl _, SameFront.refl _⟩
  · refine ⟨rfl, rfl, rfl, fun i => by cases i <;> exact ⟨rfl, rfl⟩, fun i front => ?_⟩
    cases i with
    | alarm => exact absurd rfl front
    | _ => rfl

theorem alarmLevel_held (x : Sign) (level : Nat) : SignHeld x (x.alarmLevel level) := by
  unfold Sign.alarmLevel
  split
  · exact SignHeld.refl x
  · refine ⟨rfl, rfl, rfl, fun i => by cases i <;> exact ⟨rfl, rfl⟩, fun i front => ?_⟩
    cases i with
    | alarm => exact absurd rfl front
    | _ => rfl

theorem withFlash_held (x : Sign) (f : Option Flash) : SignHeld x { x with flash := f } :=
  ⟨rfl, rfl, rfl, SameChecks.refl _, SameFront.refl _⟩

theorem flashTick_held (x : Sign) (full : Nat) : SignHeld x (x.flashTick full) := by
  unfold Sign.flashTick
  split
  · exact SignHeld.refl x
  · split
    · exact (withFlash_held x _).trans (alarmLevel_held _ _)
    · exact withFlash_held x _

theorem fullLevelChanged_held (s : State) : SignHeld s.sign s.fullLevelChanged.sign := by
  have aimed := aim_held s.sign s.sign.target s.fullLevel
  unfold State.fullLevelChanged
  dsimp only
  split
  · exact aimed.trans (alarmLevel_held _ _)
  · exact aimed

/-- The work of a fare tick on hires and journal leaves the sign so: it only derives its target afresh (R133). -/
theorem fareWork_held (s : State) : SignHeld s.sign s.fareWork.sign := by
  have filed : Filed fun t => SignHeld s.sign t.sign := by
    refine ⟨fun _ _ h => h, fun _ _ h => h, fun _ _ _ _ h => h, fun _ _ _ h => h, fun t h => ?_⟩
    rcases rederive_cases t with same | aimed
    · rw [same]
      exact h
    · rw [aimed]
      exact h.trans (aim_held _ _ _)
  exact filed.fareWork (SignHeld.refl s.sign)

/-! ### The sign's own tick -/

/-- A step touches the sign and the ports alone. -/
def SignOnly (s t : State) : Prop := t = { s with sign := t.sign, ports := t.ports }

theorem SignOnly.trans {s t u : State} (h : SignOnly s t) (g : SignOnly t u) : SignOnly s u := by
  unfold SignOnly at *
  rw [g, h]

theorem rampTick_eq (s : State) : s.rampTick = { s with sign := { s.sign with
    lamps := if s.timeBase % 2 = 0 ∧ s.sign.test = none then s.sign.lamps.rampStep else s.sign.lamps } } := by
  unfold State.rampTick
  split
  · rename_i even
    unfold Sign.ramp
    cases test : s.sign.test with
    | none => simp [even, test]
    | some x => simp
  · rename_i odd
    rw [if_neg (fun h => odd h.1)]

/-- What a reading of the ambient line leaves on the sign beside what a new full level moves (R136). -/
def Sign.ambientRead (x : Sign) (night : Bool) : Sign :=
  if x.night = night then { x with disagree := 0 }
  else if ambientTurns x night then { x with night := night, disagree := 0 }
  else { x with disagree := x.disagree + 1 }

theorem readAmbient_held (s : State) (night : Bool) :
    SignOnly s (s.readAmbient night) ∧ SignHeld (s.sign.ambientRead night) (s.readAmbient night).sign := by
  unfold State.readAmbient Sign.ambientRead
  split
  · exact ⟨rfl, SignHeld.refl _⟩
  · split
    · refine ⟨?_, fullLevelChanged_held { s with sign := { s.sign with night := night, disagree := 0 } }⟩
      unfold SignOnly
      rw [(fullLevelChanged_out _).1]
    · exact ⟨rfl, SignHeld.refl _⟩

/-- The line is read whatever the lamps show. -/
theorem ambientRead_withLamps (x : Sign) (l : Lamps) (night : Bool) :
    ({ x with lamps := l } : Sign).ambientRead night = { x.ambientRead night with lamps := l } := by
  unfold Sign.ambientRead ambientTurns
  dsimp only
  split
  · rfl
  · split <;> rfl

theorem ambientRead_test (x : Sign) (night : Bool) : (x.ambientRead night).test = x.test := by
  unfold Sign.ambientRead
  split
  · rfl
  · split <;> rfl

theorem setLevel_checks (l : Lamps) (i : LampId) (n : Nat) : SameChecks l (l.setLevel i n) := fun j => by
  cases i <;> cases j <;> exact ⟨rfl, rfl⟩

/-- A tick of the test moves levels; while its step does not run out, none (R143). -/
theorem testTick_out (s : State) : SignOnly s s.testTick ∧ s.testTick.sign.night = s.sign.night
    ∧ s.testTick.sign.disagree = s.sign.disagree ∧ SameChecks s.sign.lamps s.testTick.sign.lamps
    ∧ ((∀ x, s.sign.test = some x → 1 < x.left) → s.testTick.sign.lamps = s.sign.lamps) := by
  unfold State.testTick
  split
  · exact ⟨rfl, rfl, rfl, SameChecks.refl _, fun _ => rfl⟩
  · rename_i x test
    split
    · rename_i ends
      have notEnding : ¬∀ y, s.sign.test = some y → 1 < y.left := fun h => by
        have := h x test
        simp [SignTest.ends] at ends
        omega
      split
      · rename_i following _
        exact ⟨rfl, rfl, rfl, (setLevel_checks _ x.lamp 0).trans (setLevel_checks _ following 15), fun h => absurd h notEnding⟩
      · have ended : SignHeld { s.sign with test := none } (s.sign.endTest s.fullLevel) :=
          (alarmLevel_held _ _).trans (aim_held _ _ _)
        exact ⟨rfl, ended.night, ended.disagree, ended.checks, fun h => absurd h notEnding⟩
    · exact ⟨rfl, rfl, rfl, SameChecks.refl _, fun _ => rfl⟩

theorem checkLamps_out (s : State) (b : LampBits) :
    SignOnly s (s.checkLamps b) ∧ (s.checkLamps b).sign = { s.sign with lamps := s.sign.lamps.check b } := by
  unfold State.checkLamps
  dsimp only
  split <;> split <;> exact ⟨rfl, rfl⟩

/-- A lamp's check looks at its level, and not at its goal (R140). -/
theorem check_goal (x : Lamp) (goal : Nat) (high : Bool) : ({ x with goal := goal } : Lamp).check high = { x.check high with goal := goal } := by
  unfold Lamp.check
  split
  · rfl
  · split <;> rfl

theorem check_kept (x : Lamp) (high : Bool) : (x.check high).level = x.level ∧ (x.check high).goal = x.goal := by
  unfold Lamp.check
  split
  · exact ⟨rfl, rfl⟩
  · split <;> exact ⟨rfl, rfl⟩

theorem check_level (l : Lamps) (b : LampBits) (i : LampId) : ((l.check b).get i).level = (l.get i).level := by
  cases i <;> exact (check_kept _ _).1

/-- Lamps checked alike are alike but for their goals. -/
theorem SameFront.check {l m : Lamps} (h : SameFront l m) (b : LampBits) : SameFront (l.check b) (m.check b) := by
  have lamp : ∀ (x y : Lamp) (high : Bool), y = { x with goal := y.goal } →
      y.check high = { x.check high with goal := (y.check high).goal } := by
    intro x y high same
    rw [(check_kept y high).2, ← check_goal, ← same]
  intro i front
  cases i with
  | alarm => exact absurd rfl front
  | vacant => exact lamp _ _ _ (h .vacant front)
  | hired => exact lamp _ _ _ (h .hired front)
  | offDuty => exact lamp _ _ _ (h .offDuty front)
  | share => exact lamp _ _ _ (h .share front)

theorem rampStep_checks (l : Lamps) : SameChecks l l.rampStep := by
  have lower : ∀ x : Lamp, x.lower.misses = x.misses ∧ x.lower.fault = x.fault := fun x => by
    unfold Lamp.lower
    split <;> exact ⟨rfl, rfl⟩
  have raise : ∀ (x : Lamp) (may : Bool), (x.lower.raise may).misses = x.misses ∧ (x.lower.raise may).fault = x.fault := fun x may => by
    unfold Lamp.raise
    split <;> exact lower x
  intro i
  cases i with
  | alarm => exact ⟨rfl, rfl⟩
  | _ => exact raise _ _

/-- What the sign's tick leaves: the ambient value as its line was read; the checks but at a fare tick; and, while no step of a test runs
out, the front lamps ramped, and at a fare tick checked after it, their goals aside (R136, R137, R140, R143). -/
structure SignTicked (s : State) (fare : Bool) (z : Sign) : Prop where
  ambient : z.night = (s.sign.ambientRead s.pins.night).night ∧ z.disagree = (s.sign.ambientRead s.pins.night).disagree
  checks : fare = false → SameChecks s.sign.lamps z.lamps
  front : (∀ x, s.sign.test = some x → 1 < x.left) →
    SameFront (if fare then s.rampTick.sign.lamps.check s.pins.sense else s.rampTick.sign.lamps) z.lamps

theorem SignTicked.held {s : State} {fare : Bool} {y z : Sign} (h : SignTicked s fare y) (g : SignHeld y z) : SignTicked s fare z :=
  ⟨⟨g.night.trans h.ambient.1, g.disagree.trans h.ambient.2⟩, fun noFare => (h.checks noFare).trans g.checks,
    fun going => (h.front going).trans g.front⟩

/-- The sign's tick up to its test: the ramp, the ambient line and the flash. -/
def State.flashed (s : State) : State :=
  { s.rampTick.readAmbient s.pins.night with
    sign := (s.rampTick.readAmbient s.pins.night).sign.flashTick (s.rampTick.readAmbient s.pins.night).fullLevel }

theorem signTick_eq (s : State) (fare : Bool) : s.signTick fare =
    if fare then s.flashed.testTick.checkLamps s.flashed.testTick.pins.sense else s.flashed.testTick := rfl

theorem flashed_out (s : State) : SignOnly s s.flashed
    ∧ SignHeld { s.sign.ambientRead s.pins.night with lamps := s.rampTick.sign.lamps } s.flashed.sign := by
  have ramped := rampTick_eq s
  have lamps : s.rampTick.sign = { s.sign with lamps := s.rampTick.sign.lamps } := by rw [ramped]
  obtain ⟨ambientOnly, ambientHeld⟩ := readAmbient_held s.rampTick s.pins.night
  rw [lamps, ambientRead_withLamps] at ambientHeld
  have rampOnly : SignOnly s s.rampTick := by
    unfold SignOnly
    rw [ramped]
  refine ⟨?_, ambientHeld.trans (flashTick_held _ _)⟩
  exact (rampOnly.trans ambientOnly).trans (show SignOnly (s.rampTick.readAmbient s.pins.night) s.flashed from rfl)

theorem rampTick_checks (s : State) : SameChecks s.sign.lamps s.rampTick.sign.lamps := by
  rw [rampTick_eq]
  dsimp only
  split
  · exact rampStep_checks _
  · exact SameChecks.refl _

theorem signTick_out (s : State) (fare : Bool) : SignOnly s (s.signTick fare) ∧ SignTicked s fare (s.signTick fare).sign := by
  obtain ⟨flashOnly, flashHeld⟩ := flashed_out s
  obtain ⟨testOnly, testNight, testDisagree, testChecks, testLamps⟩ := testTick_out s.flashed
  have before : SignOnly s s.flashed.testTick := flashOnly.trans testOnly
  have pins : s.flashed.testTick.pins = s.pins := by rw [before]
  have ambient : s.flashed.testTick.sign.night = (s.sign.ambientRead s.pins.night).night
      ∧ s.flashed.testTick.sign.disagree = (s.sign.ambientRead s.pins.night).disagree :=
    ⟨testNight.trans flashHeld.night, testDisagree.trans flashHeld.disagree⟩
  have checks : SameChecks s.sign.lamps s.flashed.testTick.sign.lamps := ((rampTick_checks s).trans flashHeld.checks).trans testChecks
  have front : (∀ x, s.sign.test = some x → 1 < x.left) → SameFront s.rampTick.sign.lamps s.flashed.testTick.sign.lamps := by
    intro going
    rw [testLamps fun x test => going x ((ambientRead_test _ _).symm.trans (flashHeld.test.symm.trans test))]
    exact flashHeld.front
  rw [signTick_eq]
  cases fare with
  | false => exact ⟨before, ambient, fun _ => checks, front⟩
  | true =>
    obtain ⟨checkOnly, checked⟩ := checkLamps_out s.flashed.testTick s.flashed.testTick.pins.sense
    refine ⟨before.trans checkOnly, ?_⟩
    rw [if_pos rfl, checked, pins]
    exact ⟨ambient, fun no => absurd no (by decide), fun going => (front going).check _⟩

/-- Off a fare tick the sign tells the Console port nothing (R141, R143). -/
theorem signTick_console (s : State) : (s.signTick false).port .console = s.port .console := by
  have ramp : s.rampTick.ports = s.ports := by rw [rampTick_eq]
  have ambient : ∀ (x : State) (night : Bool), (x.readAmbient night).ports = x.ports := by
    intro x night
    unfold State.readAmbient
    split
    · rfl
    · split
      · rw [(fullLevelChanged_out _).1]
      · rfl
  have test : ∀ x : State, x.testTick.port .console = x.port .console := by
    intro x
    unfold State.testTick
    split
    · rfl
    · split
      · split <;> rfl
      · rfl
  refine (test _).trans ?_
  show (s.rampTick.readAmbient s.pins.night).ports.console = s.ports.console
  rw [ambient, ramp]

/-! ### Push-to-talk and the call line -/

/-- A path is CLOSED after a derivation exactly when it is not wanted, and opening a WAITING path leaves that so (R154, R155). -/
theorem derived_closed_iff (x other : Path) (wanted half : Bool) (depth : Nat) :
    (if (x.derived wanted half depth).mayOpen other then (x.derived wanted half depth).openFrom depth
      else x.derived wanted half depth).state = .closed ↔ wanted = false := by
  have derived : (x.derived wanted half depth).state = .closed ↔ wanted = false := by
    unfold Path.derived
    cases wanted with
    | false => simp
    | true =>
      by_cases opened : x.state = .opened
      · simp [opened]
      · cases half <;> simp [opened, Path.openFrom]
  split
  · rename_i opens
    rw [← derived]
    simp only [Path.mayOpen, Bool.and_eq_true, beq_iff_eq] at opens
    simp [opens.1, Path.openFrom]
  · exact derived

theorem settlePaths_closed_iff (x : Intercom) (depth : Nat) :
    ((x.settlePaths depth).fr.state = .closed ↔ x.wantsFR = false) ∧ ((x.settlePaths depth).rf.state = .closed ↔ x.wantsRF = false) :=
  ⟨derived_closed_iff _ _ _ _ _, derived_closed_iff _ _ _ _ _⟩

/-- The intercom after a reading of the push-to-talk line (R156). -/
def Intercom.talkRead (x : Intercom) (pressed : Bool) (depth : Nat) : Intercom :=
  if x.talkTurns pressed then { x with talkOlder := x.talkNewer, talkNewer := pressed, held := pressed }.settlePaths depth
  else { x with talkOlder := x.talkNewer, talkNewer := pressed }

/-- The intercom after a reading of the call line (R159). -/
def Intercom.callRead (x : Intercom) (pressed : Bool) (depth : Nat) : Intercom :=
  if x.callPressed pressed && x.mode == .privateTalk then { x with callOlder := x.callNewer, callNewer := pressed }.ring depth
  else { x with callOlder := x.callNewer, callNewer := pressed }

theorem readTalk_eq (s : State) (pressed : Bool) :
    s.readTalk pressed = { s with intercom := s.intercom.talkRead pressed s.tariffs.config.depth } := by
  unfold State.readTalk Intercom.talkRead
  dsimp only
  split <;> rfl

theorem readCall_eq (s : State) (pressed : Bool) : s.readCall pressed =
    let t := { s with intercom := s.intercom.callRead pressed s.tariffs.config.depth }
    if s.intercom.callPressed pressed && s.intercom.mode == .privateTalk then t.notify .console .call else t := by
  unfold State.readCall Intercom.callRead
  dsimp only
  split <;> rfl

theorem talkTurns_iff (x : Intercom) (pressed : Bool) : x.talkTurns pressed = true ↔ pressed ≠ x.held ∧ x.talkNewer = pressed := by
  unfold Intercom.talkTurns
  cases pressed <;> cases x.held <;> cases x.talkNewer <;> decide

/-- A reading of the push-to-talk line takes the line, turns HELD at the second reading that says so, and moves the paths only then. -/
theorem talkRead_out (x : Intercom) (pressed : Bool) (depth : Nat) : x.talkRead pressed depth = { x with
      talkOlder := x.talkNewer
      talkNewer := pressed
      held := if pressed ≠ x.held ∧ x.talkNewer = pressed then pressed else x.held
      fr := (x.talkRead pressed depth).fr
      rf := (x.talkRead pressed depth).rf } := by
  unfold Intercom.talkRead
  by_cases turns : x.talkTurns pressed = true
  · rw [if_pos turns, if_pos ((talkTurns_iff x pressed).1 turns)]
    rfl
  · rw [if_neg turns, if_neg (mt (talkTurns_iff x pressed).2 turns)]

/-- A turn derives the wanted paths; without one the paths stand (R154, R156). -/
theorem talkRead_paths (x : Intercom) (pressed : Bool) (depth : Nat) :
    ((x.talkRead pressed depth).held ≠ x.held →
      ((x.talkRead pressed depth).fr.state = .closed ↔ (x.talkRead pressed depth).wantsFR = false)
      ∧ ((x.talkRead pressed depth).rf.state = .closed ↔ (x.talkRead pressed depth).wantsRF = false))
    ∧ ((x.talkRead pressed depth).held = x.held →
      (x.talkRead pressed depth).fr = x.fr ∧ (x.talkRead pressed depth).rf = x.rf) := by
  unfold Intercom.talkRead
  by_cases turns : x.talkTurns pressed = true
  · rw [if_pos turns]
    exact ⟨fun _ => settlePaths_closed_iff _ depth, fun same => absurd same ((talkTurns_iff x pressed).1 turns).1⟩
  · rw [if_neg turns]
    exact ⟨fun turned => absurd rfl turned, fun _ => ⟨rfl, rfl⟩⟩

/-- A reading of the call line takes the line; a press taken in PRIVATE begins an absent chime, and nothing else moves the paths. -/
theorem callRead_out (x : Intercom) (pressed : Bool) (depth : Nat) : x.callRead pressed depth = { x with
      callOlder := x.callNewer
      callNewer := pressed
      chime := if x.callPressed pressed = true ∧ x.mode = .privateTalk then some (x.chime.getD ⟨3, 8000, 0⟩) else x.chime
      fr := (x.callRead pressed depth).fr
      rf := (x.callRead pressed depth).rf } := by
  unfold Intercom.callRead Intercom.ring
  by_cases taken : x.callPressed pressed = true ∧ x.mode = .privateTalk
  · rw [if_pos (by simpa using taken), if_pos taken]
    cases x.chime <;> rfl
  · rw [if_neg (by simpa using taken), if_neg taken]

theorem callRead_untaken {x : Intercom} {pressed : Bool} (depth : Nat) (untaken : ¬(x.mode = .privateTalk ∧ x.callPressed pressed = true)) :
    (x.callRead pressed depth).fr = x.fr ∧ (x.callRead pressed depth).rf = x.rf := by
  unfold Intercom.callRead
  rw [if_neg (by simpa [and_comm] using untaken)]
  exact ⟨rfl, rfl⟩

/-- The chime begun, with push-to-talk RELEASED the passenger's path is wanted (R154, R159). -/
theorem callRead_begun {x : Intercom} {pressed : Bool} (depth : Nat) (taken : x.callPressed pressed = true) (mode : x.mode = .privateTalk)
    (absent : x.chime = none) (released : x.held = false) : (x.callRead pressed depth).rf.state ≠ .closed := by
  have rings : x.callRead pressed depth = { x with
      callOlder := x.callNewer, callNewer := pressed, chime := some (Playing.begin Config.chimeTone) }.settlePaths depth := by
    unfold Intercom.callRead Intercom.ring
    rw [if_pos (by simp [taken, mode]), if_neg (by simp [absent])]
  rw [rings, Ne, (settlePaths_closed_iff _ depth).2]
  simp [Intercom.wantsRF, mode, released]

/-! ### The alarm line -/

/-- A press touches the log and the state of the alarm beside the sign and the ports, and not the line's runs (R167, R168). -/
theorem alarmTick_out (s : State) :
    s.alarmTick = { s with alarm := s.alarmTick.alarm, sign := s.alarmTick.sign, ports := s.alarmTick.ports }
      ∧ SignHeld s.sign s.alarmTick.sign ∧ s.alarmTick.port .console = s.port .console
      ∧ s.alarmTick.alarm.armed = (s.alarm.readLine s.pins.alarm).armed
      ∧ s.alarmTick.alarm.pressRun = (s.alarm.readLine s.pins.alarm).pressRun
      ∧ s.alarmTick.alarm.releaseRun = (s.alarm.readLine s.pins.alarm).releaseRun := by
  unfold State.alarmTick
  dsimp only
  split
  · unfold State.alarmPress
    split
    · exact ⟨rfl, (withFlash_held s.sign _).trans (alarmLevel_held _ _), rfl, rfl, rfl, rfl⟩
    · exact ⟨rfl, SignHeld.refl _, rfl, rfl, rfl, rfl⟩
  · exact ⟨rfl, SignHeld.refl _, rfl, rfl, rfl, rfl⟩

/-- The runs and the armed flag after a reading (R166). -/
theorem readLine_out (x : Alarm) (pressed : Bool) :
    (x.readLine pressed).armed = ((x.armed && !(pressed && x.pressRun == 49)) || (!pressed && decide (1 ≤ x.releaseRun)))
      ∧ (x.readLine pressed).pressRun = (if pressed then min (x.pressRun + 1) 50 else 0)
      ∧ (x.readLine pressed).releaseRun = (if pressed then 0 else min (x.releaseRun + 1) 2) := by
  unfold Alarm.readLine Alarm.pressTaken
  cases pressed with
  | true => cases h : x.armed <;> simp
  | false => simp

end Sys2Proof.Machine
end

section
/-! A tick as a whole, seen from each unit it works on, and the fare tick on a hire (R35 to R38, R45, R46, R52, R136, R137, R140, R156,
R159, R166, R186). -/

namespace Sys2Proof.Machine

/-! ### Before the fare work -/

/-- The readings of push-to-talk and the call line: the intercom so read, and CALL to the Console port for a press taken (R156, R159). -/
theorem intercomTick_out (s : State) :
    SignOnly { s with intercom :=
        (s.intercom.talkRead s.pins.talk s.tariffs.config.depth).callRead s.pins.call s.tariffs.config.depth } s.intercomTick
      ∧ s.intercomTick.sign = s.sign
      ∧ (s.intercom.mode = .privateTalk ∧ s.intercom.callPressed s.pins.call = true → (s.intercomTick.port .console).holds .call = true)
      ∧ (¬(s.intercom.mode = .privateTalk ∧ s.intercom.callPressed s.pins.call = true) → s.intercomTick.ports = s.ports) := by
  have pressed : ∀ d b, (s.intercom.talkRead s.pins.talk d).callPressed b = s.intercom.callPressed b
      ∧ (s.intercom.talkRead s.pins.talk d).mode = s.intercom.mode := by
    intro d b
    rw [talkRead_out]
    exact ⟨rfl, rfl⟩
  obtain ⟨samePress, sameMode⟩ := pressed s.tariffs.config.depth s.pins.call
  unfold State.intercomTick
  rw [readTalk_eq, readCall_eq]
  dsimp only
  rw [samePress, sameMode]
  by_cases taken : s.intercom.mode = .privateTalk ∧ s.intercom.callPressed s.pins.call = true
  · rw [if_pos (by simp [taken])]
    exact ⟨rfl, rfl, fun _ => add_self _ _, fun untaken => absurd taken untaken⟩
  · rw [if_neg (by simpa [and_comm] using taken)]
    exact ⟨rfl, rfl, fun is => absurd is taken, fun _ => rfl⟩

/-- What a tick has done to the sign, the intercom, the alarm and the Console port before its fare work. -/
structure PreTicked (l : Lines) (s t : State) : Prop where
  sign : SignTicked { s with pins := l, timeBase := s.nextCount } s.fareNext t.sign
  intercom : t.intercom = (s.intercom.talkRead l.talk s.tariffs.config.depth).callRead l.call s.tariffs.config.depth
  alarm : t.alarm.armed = (s.alarm.readLine l.alarm).armed ∧ t.alarm.pressRun = (s.alarm.readLine l.alarm).pressRun
    ∧ t.alarm.releaseRun = (s.alarm.readLine l.alarm).releaseRun
  called : s.intercom.mode = .privateTalk ∧ s.intercom.callPressed l.call = true → (t.port .console).holds .call = true
  console : ¬(s.intercom.mode = .privateTalk ∧ s.intercom.callPressed l.call = true) → s.fareNext = false →
    t.port .console = s.port .console

theorem preTick_out (l : Lines) (s : State) : PreTicked l s (preTick l s) := by
  obtain ⟨a, ha⟩ : ∃ a : State, a = State.signTick { s with pins := l, timeBase := s.nextCount } s.fareNext := ⟨_, rfl⟩
  obtain ⟨signOnly, ticked⟩ := signTick_out { s with pins := l, timeBase := s.nextCount } s.fareNext
  have signConsole : s.fareNext = false → a.port .console = s.port .console := by
    intro noFare
    rw [ha, noFare]
    exact signTick_console _
  rw [← ha] at signOnly ticked
  obtain ⟨talked, sameSign, called, uncalled⟩ := intercomTick_out a
  have fields : a.pins = l ∧ a.intercom = s.intercom ∧ a.alarm = s.alarm ∧ a.tariffs = s.tariffs := by
    rw [signOnly]
    exact ⟨rfl, rfl, rfl, rfl⟩
  obtain ⟨pins, intercom, alarm, tariffs⟩ := fields
  have fields : a.intercomTick.alarm = s.alarm ∧ a.intercomTick.pins = l
      ∧ a.intercomTick.intercom = (s.intercom.talkRead l.talk s.tariffs.config.depth).callRead l.call s.tariffs.config.depth := by
    rw [talked, ← alarm, ← pins, ← intercom, ← tariffs]
    exact ⟨rfl, rfl, rfl⟩
  obtain ⟨sameAlarm, samePins, sameIntercom⟩ := fields
  rw [pins, intercom] at called uncalled
  obtain ⟨pressed, held, console, runs⟩ := alarmTick_out a.intercomTick
  rw [sameAlarm, samePins] at runs
  have pre : preTick l s = a.intercomTick.alarmTick := by
    rw [ha]
    rfl
  rw [pre]
  refine ⟨ticked.held (sameSign ▸ held), ?_, runs, fun taken => ?_, fun untaken noFare => ?_⟩
  · rw [pressed]
    exact sameIntercom
  · exact (soft_alarmTick _).p _ _ (called taken)
  · refine console.trans ((?_ : a.intercomTick.ports.console = a.ports.console).trans (signConsole noFare))
    rw [uncalled untaken]

/-! ### The fare work -/

theorem completeHire_told (s : State) (sl : SlotId) : PLe s.ports (s.completeHire sl).ports :=
  (((mild_shift s (s.shift.fileHire (s.hire sl))).trans (mild_enterStage _ sl Hire.cleared)).trans (mild_shift _ _)).trans
    (mild_beginSummary _) |>.p

theorem completeShift_told (s : State) : PLe s.ports s.completeShift.ports :=
  (((((mild_shift s { s.shift with state := .closed, summary := false }).trans (mild_notify _ _ _)).trans (mild_notify _ _ _)).trans
    (mild_notify _ _ _)).trans (mild_rederive _)).trans (mild_shift _ _) |>.p

theorem complete_told (s : State) (b : RecordBody) : PLe s.ports (s.complete b).ports :=
  match b with
  | .hire x => completeHire_told s x.slot
  | .shift _ _ _ _ => completeShift_told s
  | .lateApproval _ _ _ _ _ _ => PLe.refl _
  | .activation _ => PLe.refl _
  | .retentionLost => PLe.refl _

theorem noSlot_told (s : State) (x : JournalRecord) (rest : List JournalRecord) : PLe s.ports (s.noSlot x rest).ports := by
  have low : ∀ j : Journal, PLe s.ports ({ s with journal := j } : State).updateLow.ports :=
    fun j => (mild_updateLow { s with journal := j }).p
  unfold State.noSlot
  dsimp only
  split
  · exact (low _).trans (complete_told _ _)
  · exact low _

/-- No notice is lost as filing goes on. -/
theorem beginFiling_told (n : Nat) : ∀ s : State, PLe s.ports (s.beginFiling n).ports := by
  induction n with
  | zero => exact fun s => PLe.refl _
  | succ n ih =>
    intro s
    unfold State.beginFiling
    split
    · split
      · exact PLe.refl _
      · exact (noSlot_told _ _ _).trans (ih _)
    · exact PLe.refl _

theorem fareWork_told (s : State) : PLe s.ports s.fareWork.ports :=
  (((mild_eachHire s _).trans (expireBookings_mild _)).trans (expireSettlements_mild _)).p.trans (beginFiling_told _ _)

/-- What a tick leaves before Part clear goes on: its fare work, or none. -/
def ticked (l : Lines) (s : State) : State := if s.fareNext then (preTick l s).fareWork else preTick l s

theorem ticked_beyondFiling (l : Lines) (s : State) : (ticked l s).beyondFiling = (preTick l s).beyondFiling := by
  unfold ticked
  split
  · exact fareWork_beyondFiling _
  · rfl

theorem tick_idle (l : Lines) {s : State} (idle : s.partClear = .idle) : s.tick l = ticked l s := by
  obtain ⟨-, -, -, -, -, -, -, -, -, -, -, -, -, partClear, -⟩ := kept_of_beyondFiling (ticked_beyondFiling l s)
  refine partClearOn_idle _ (partClear.trans ?_)
  rw [pre_e]
  exact idle

theorem ticked_sign (l : Lines) (s : State) : SignHeld (preTick l s).sign (ticked l s).sign := by
  unfold ticked
  split
  · exact fareWork_held _
  · exact SignHeld.refl _

theorem ticked_told (l : Lines) (s : State) : PLe (preTick l s).ports (ticked l s).ports := by
  unfold ticked
  split
  · exact fareWork_told _
  · exact PLe.refl _

theorem ticked_noFare (l : Lines) {s : State} (noFare : s.fareNext = false) : ticked l s = preTick l s := by
  unfold ticked
  rw [if_neg (by simp [noFare])]

/-! ### The count, the lines and what a tick leaves -/

/-- Part clear going on reaches working memory alone: no count, no clock, no remainder, no active set (R192, R193). -/
theorem partClearOn_out (s : State) : ∃ (q : PartClear) (staging : TariffSet) (chain : Chain) (x : Intercom) (y : Sign) (ports : Ports)
    (indicators : BitVec 4), s.partClearOn = { s with
      partClear := q, tariffs := { s.tariffs with staging := staging, chain := chain }, intercom := x, sign := y, ports := ports,
      indicators := indicators } := by
  unfold State.partClearOn
  split
  · split
    · exact ⟨_, _, _, _, _, _, _, rfl⟩
    · exact ⟨_, _, _, _, _, _, _, rfl⟩
    · exact ⟨_, _, _, _, _, _, _, rfl⟩
    · split
      · exact ⟨_, _, _, _, _, _, _, rfl⟩
      · exact ⟨_, _, _, _, _, _, _, rfl⟩
  · exact ⟨_, _, _, _, _, _, _, rfl⟩

theorem tick_kept (l : Lines) (s : State) : (s.tick l).timeBase = s.nextCount ∧ (s.tick l).pins = l ∧ (s.tick l).clock = s.clock
    ∧ (s.tick l).clockStatus = s.clockStatus ∧ (s.tick l).power = s.power ∧ (s.tick l).nextHire = s.nextHire
    ∧ (s.tick l).vacantRem = s.vacantRem ∧ (s.tick l).odoRem = s.odoRem ∧ (s.tick l).tariffs.active = s.tariffs.active
    ∧ (s.tick l).tariffs.config = s.tariffs.config ∧ (s.tick l).alarm = (preTick l s).alarm := by
  obtain ⟨-, power, pins, timeBase, clock, clockStatus, nextHire, vacantRem, odoRem, tariffs, -, alarm, -⟩ :=
    kept_of_beyondFiling (ticked_beyondFiling l s)
  obtain ⟨q, staging, chain, x, y, ports, indicators, on⟩ := partClearOn_out (ticked l s)
  have tick : s.tick l = (ticked l s).partClearOn := rfl
  rw [tick, on]
  dsimp only
  rw [power, pins, timeBase, clock, clockStatus, nextHire, vacantRem, odoRem, tariffs, alarm, pre_e]
  exact ⟨rfl, rfl, rfl, rfl, rfl, rfl, rfl, rfl, rfl, rfl, rfl⟩

/-- A tick that is no fare tick leaves all that the fare work may reach (R186). -/
theorem tick_noFare (l : Lines) {s : State} (noFare : s.fareNext = false) (idle : s.partClear = .idle) :
    (s.tick l).hires = s.hires ∧ (s.tick l).shift = s.shift ∧ (s.tick l).journal = s.journal ∧ (s.tick l).tariffs = s.tariffs
      ∧ (s.tick l).indicators = s.indicators ∧ (s.tick l).partClear = .idle ∧ (s.tick l).draws = s.draws := by
  rw [tick_idle l idle, ticked_noFare l noFare, pre_e]
  exact ⟨rfl, rfl, rfl, rfl, rfl, idle, rfl⟩

/-! ### A fare tick on a hire -/

/-- A fare tick keeps the claim, and of the stage all but that a step takes ENGAGED to METERING (R35, R44). -/
theorem fareTick_kept (n : Nat) (active : TariffSet) (h : Hire) :
    (h.fareTick n active).claim = h.claim ∧ ((h.fareTick n active).stage = h.stage ∨ (h.fareTick n active).stage = .metering) := by
  have timed : ∀ (m : BandMode) (x : Hire), (x.timeTrigger m).claim = x.claim ∧ (x.timeTrigger m).stage = x.stage := by
    intro m x
    cases m <;> exact ⟨rfl, rfl⟩
  have charged : ∀ (m : BandMode) (x : Hire) (amount share : Nat), ((x.timeTrigger m).charge amount share).claim = x.claim
      ∧ (((x.timeTrigger m).charge amount share).stage = x.stage ∨ ((x.timeTrigger m).charge amount share).stage = .metering) := by
    intro m x amount share
    obtain ⟨claim, stage⟩ := timed m x
    refine ⟨claim, ?_⟩
    unfold Hire.charge
    dsimp only
    rw [stage]
    split
    · exact .inr rfl
    · exact .inl rfl
  unfold Hire.fareTick
  split
  · split
    · exact ⟨rfl, .inl rfl⟩
    · split
      · exact ⟨rfl, .inl rfl⟩
      · split
        · exact ⟨rfl, .inl rfl⟩
        · dsimp only
          split
          · exact charged _ _ _ _
          · exact ⟨rfl, .inl rfl⟩
  · exact ⟨rfl, .inl rfl⟩

/-- Nothing expires on a hire that is neither BOOKED nor STOPPED and is not claimed (R8, R78, R85). -/
theorem expireSlot_still {s : State} {sl : SlotId} (notStopped : (s.hire sl).stage ≠ .stopped) (unclaimed : (s.hire sl).claim = none) :
    s.expireSlot sl = s := by
  have payments : s.expirePayments sl = s := by
    unfold State.expirePayments
    dsimp only
    rw [if_neg (by simp [notStopped])]
  unfold State.expireSlot
  rw [payments]
  unfold State.expireClaim
  dsimp only
  rw [unclaimed]

/-- A fare tick on an unclaimed hire that is running or SUSPENDED is the Fare Engine's work on it alone (R35, R186). -/
theorem tick_hire {l : Lines} {s : State} {sl : SlotId} (fare : s.fareNext = true) (idle : s.partClear = .idle) (steady : s.journal.steady)
    (unclaimed : (s.hire sl).claim = none) (notBooked : (s.hire sl).stage ≠ .booked) (notStopped : (s.hire sl).stage ≠ .stopped) :
    (s.tick l).hire sl = (s.hire sl).fareTick s.hires.running s.tariffs.active := by
  have pre := pre_e l s
  have presteady : (preTick l s).journal.steady := by
    rw [pre]
    exact steady
  have fields : (preTick l s).hire sl = s.hire sl ∧ (preTick l s).hires = s.hires ∧ (preTick l s).tariffs = s.tariffs := by
    rw [pre]
    exact ⟨rfl, rfl, rfl⟩
  obtain ⟨hire, hires, tariffs⟩ := fields
  obtain ⟨u, v, w, x, -, uhire, rfl, -, whire, rfl, -, thire⟩ := fareWork_at presteady sl
  rw [hire, hires, tariffs] at uhire
  obtain ⟨claim, stage⟩ := fareTick_kept s.hires.running s.tariffs.active (s.hire sl)
  have notBookedAfter : (u.hire sl).stage ≠ .booked := by
    rw [uhire]
    rcases stage with same | metering
    · rw [same]
      exact notBooked
    · rw [metering]
      decide
  have after : w.hire sl = (s.hire sl).fareTick s.hires.running s.tariffs.active := by
    rw [whire, hire_expireBooking_not _ notBookedAfter, uhire]
  rw [fareWork_tick fare idle, thire, expireSlot_still ?_ ?_, after]
  · rw [after]
    rcases stage with same | metering
    · rw [same]
      exact notStopped
    · rw [metering]
      decide
  · rw [after, claim, unclaimed]

theorem fareTick_unmetered {n : Nat} {active : TariffSet} {h : Hire} (unmetered : meteredBy active h = none) : h.fareTick n active = h := by
  unfold Hire.fareTick
  rw [unmetered]
  exact ite_self h

/-- A fare tick on a running hire in the band it has reached, by the band's mode and the time threshold in force (R35 to R38). -/
theorem fareTick_metered {n : Nat} {active : TariffSet} {h : Hire} {t : Tariff} {x : Band} (run : h.running = true)
    (metered : meteredBy active h = some t) (one : 1 ≤ h.band) (band : t.bands[h.band - 1]? = some x) :
    (x.mode = .distance → h.fareTick n active = h)
    ∧ (x.mode ≠ .distance → h.timeAcc + 1 < (if h.timeInitial then t.t0 else x.time) →
        h.fareTick n active = { h with timeAcc := h.timeAcc + 1 })
    ∧ (x.mode ≠ .distance → (if h.timeInitial then t.t0 else x.time) ≤ h.timeAcc + 1 →
        h.fareTick n active = Hire.charge { h with
          timeAcc := 0
          distAcc := if x.mode = .combined then 0 else h.distAcc
          timeInitial := false
          distInitial := if x.mode = .combined then false else h.distInitial } x.amount (sharePercent t n)) := by
  have reached : t.band h.band = some x := by
    unfold Tariff.band
    rw [if_neg (by omega), band]
  have work : h.fareTick n active = match x.mode with
      | .distance => h
      | _ => if (if h.timeInitial then t.t0 else x.time) ≤ h.timeAcc + 1
        then (Hire.timeTrigger x.mode { h with timeAcc := h.timeAcc + 1 }).charge x.amount (sharePercent t n)
        else { h with timeAcc := h.timeAcc + 1 } := by
    unfold Hire.fareTick
    rw [if_pos run, metered]
    dsimp only
    rw [reached]
    rfl
  rw [work]
  refine ⟨fun distance => by rw [distance], fun timed below => ?_, fun timed above => ?_⟩
  · cases mode : x.mode with
    | distance => exact absurd mode timed
    | _ => exact if_neg (Nat.not_le.2 below)
  · cases mode : x.mode with
    | distance => exact absurd mode timed
    | _ => exact (if_pos above).trans rfl

end Sys2Proof.Machine
end

section
/-! The sign and the intercom at a tick, and the statement on ticks. -/

namespace Sys2Proof.Machine

/-! ### The sign at a tick -/

/-- The front levels after the sign's tick are those of the ramp: a check moves none (R137, R140). -/
theorem SignTicked.level {s : State} {fare : Bool} {z : Sign} (h : SignTicked s fare z) (going : ∀ x, s.sign.test = some x → 1 < x.left)
    {i : LampId} (front : i ≠ .alarm) : (z.lamps.get i).level = (s.rampTick.sign.lamps.get i).level := by
  rw [(h.front going).level front]
  split
  · exact check_level _ _ _
  · rfl

theorem rampTick_lamps (l : Lines) (s : State) : (State.rampTick { s with pins := l, timeBase := s.nextCount }).sign.lamps =
    if s.nextCount % 2 = 0 ∧ s.sign.test = none then s.sign.lamps.rampStep else s.sign.lamps := by
  rw [rampTick_eq]

/-- A fare tick is an even count. -/
theorem fareNext_even {s : State} (fare : s.fareNext = true) : s.nextCount % 2 = 0 := by
  have tenth : s.nextCount % 10 = 0 := beq_iff_eq.1 fare
  omega

/-- The ambient value stands while its disagreeing readings are fewer than a hundred (R136). -/
theorem ambientRead_stands (x : Sign) (night : Bool) :
    (night = x.night → (x.ambientRead night).night = x.night ∧ (x.ambientRead night).disagree = 0)
    ∧ (night ≠ x.night → x.disagree < 99 → (x.ambientRead night).night = x.night ∧ (x.ambientRead night).disagree = x.disagree + 1) := by
  unfold Sign.ambientRead
  refine ⟨fun same => ?_, fun differs few => ?_⟩
  · rw [if_pos same.symm]
    exact ⟨rfl, rfl⟩
  · have stays : ambientTurns x night = false := by
      unfold ambientTurns
      rw [decide_eq_false (by omega), Bool.and_false]
    rw [if_neg differs.symm, stays]
    exact ⟨rfl, rfl⟩

/-- A tick on the sign. -/
theorem tick_sign {l : Lines} {s : State} {z : Sign} (h : SignTicked { s with pins := l, timeBase := s.nextCount } s.fareNext z) :
    (s.sign.test = none →
      (s.nextCount % 2 = 0 → ∀ i, i ≠ .alarm → (z.lamps.get i).level = (s.sign.lamps.rampStep.get i).level)
      ∧ (s.nextCount % 2 ≠ 0 → ∀ i, i ≠ .alarm → (z.lamps.get i).level = (s.sign.lamps.get i).level)
      ∧ (s.fareNext = true →
        z.lamps.vacant = { s.sign.lamps.rampStep.vacant.check l.sense.vacant with goal := z.lamps.vacant.goal }
        ∧ z.lamps.hired = { s.sign.lamps.rampStep.hired.check l.sense.hired with goal := z.lamps.hired.goal }
        ∧ z.lamps.offDuty = { s.sign.lamps.rampStep.offDuty.check l.sense.offDuty with goal := z.lamps.offDuty.goal }
        ∧ z.lamps.share = { s.sign.lamps.rampStep.share.check l.sense.share with goal := z.lamps.share.goal }))
    ∧ (∀ x, s.sign.test = some x → 1 < x.left → ∀ i, i ≠ .alarm → (z.lamps.get i).level = (s.sign.lamps.get i).level)
    ∧ (s.fareNext = false → ∀ i, (z.lamps.get i).misses = (s.sign.lamps.get i).misses
        ∧ (z.lamps.get i).fault = (s.sign.lamps.get i).fault)
    ∧ (l.night = s.sign.night → z.night = s.sign.night ∧ z.disagree = 0)
    ∧ (l.night ≠ s.sign.night → s.sign.disagree < 99 → z.night = s.sign.night ∧ z.disagree = s.sign.disagree + 1) := by
  have lamps := rampTick_lamps l s
  obtain ⟨night, disagree⟩ := h.ambient
  obtain ⟨agrees, differs⟩ := ambientRead_stands s.sign l.night
  refine ⟨fun idle => ?_, fun x test going i front => ?_, h.checks, ?_, ?_⟩
  · have going : ∀ x, s.sign.test = some x → 1 < x.left := fun x test => absurd (idle.symm.trans test) (by simp)
    refine ⟨fun even i front => ?_, fun odd i front => ?_, fun fare => ?_⟩
    · rw [h.level going front, lamps, if_pos ⟨even, idle⟩]
    · rw [h.level going front, lamps, if_neg (fun is => odd is.1)]
    · rw [if_pos ⟨fareNext_even fare, idle⟩] at lamps
      rw [fare] at h
      have checked : ∀ i, i ≠ .alarm →
          z.lamps.get i = { (s.sign.lamps.rampStep.check l.sense).get i with goal := (z.lamps.get i).goal } := by
        rw [← lamps]
        exact fun i front => h.front going i front
      exact ⟨checked .vacant (by decide), checked .hired (by decide), checked .offDuty (by decide), checked .share (by decide)⟩
  · have still : ∀ y, s.sign.test = some y → 1 < y.left := fun y is => Option.some.inj (test.symm.trans is) ▸ going
    rw [h.level still front, lamps, if_neg (by simp [test])]
  · rw [night, disagree]
    exact agrees
  · rw [night, disagree]
    exact differs

/-! ### The intercom at a tick -/

/-- Both readings: what they take from the lines, and the chime (R156, R159). -/
theorem linesRead_out (x : Intercom) (talk call : Bool) (depth : Nat) : (x.talkRead talk depth).callRead call depth = { x with
      talkOlder := x.talkNewer
      talkNewer := talk
      callOlder := x.callNewer
      callNewer := call
      held := if talk ≠ x.held ∧ x.talkNewer = talk then talk else x.held
      chime := if x.callPressed call = true ∧ x.mode = .privateTalk then some (x.chime.getD ⟨3, 8000, 0⟩) else x.chime
      fr := ((x.talkRead talk depth).callRead call depth).fr
      rf := ((x.talkRead talk depth).callRead call depth).rf } := by
  obtain ⟨fr, rf, talked⟩ : ∃ fr rf, x.talkRead talk depth = { x with
      talkOlder := x.talkNewer, talkNewer := talk, held := if talk ≠ x.held ∧ x.talkNewer = talk then talk else x.held,
      fr := fr, rf := rf } := ⟨_, _, talkRead_out x talk depth⟩
  rw [talked]
  exact callRead_out _ _ _

/-- The reading of the call line finds the mode, the press and the chime as the tick did. -/
theorem talkRead_kept (x : Intercom) (talk : Bool) (depth : Nat) : (x.talkRead talk depth).mode = x.mode
    ∧ (∀ call, (x.talkRead talk depth).callPressed call = x.callPressed call) ∧ (x.talkRead talk depth).chime = x.chime := by
  rw [talkRead_out]
  exact ⟨rfl, fun _ => rfl, rfl⟩

theorem callRead_held (x : Intercom) (call : Bool) (depth : Nat) : (x.callRead call depth).held = x.held := by
  rw [callRead_out]

/-- The paths after both readings when no press is taken: those of the push-to-talk line (R154, R156). -/
theorem linesRead_untaken {x : Intercom} {call : Bool} (talk : Bool) (depth : Nat)
    (untaken : ¬(x.mode = .privateTalk ∧ x.callPressed call = true)) :
    ((x.talkRead talk depth).callRead call depth).fr = (x.talkRead talk depth).fr
      ∧ ((x.talkRead talk depth).callRead call depth).rf = (x.talkRead talk depth).rf := by
  obtain ⟨mode, pressed, -⟩ := talkRead_kept x talk depth
  refine callRead_untaken depth ?_
  rw [mode, pressed]
  exact untaken

/-- In PTT a turn leaves the path of the one who talks open or waiting, and the other CLOSED (R154, R156). -/
theorem linesRead_ptt {x : Intercom} (talk call : Bool) (depth : Nat) (ptt : x.mode = .ptt)
    (turned : ((x.talkRead talk depth).callRead call depth).held ≠ x.held) :
    (((x.talkRead talk depth).callRead call depth).held = true → ((x.talkRead talk depth).callRead call depth).fr.state ≠ .closed
        ∧ ((x.talkRead talk depth).callRead call depth).rf.state = .closed)
    ∧ (((x.talkRead talk depth).callRead call depth).held = false → ((x.talkRead talk depth).callRead call depth).rf.state ≠ .closed
        ∧ ((x.talkRead talk depth).callRead call depth).fr.state = .closed) := by
  obtain ⟨fr, rf⟩ := linesRead_untaken (x := x) (call := call) talk depth (by simp [ptt])
  obtain ⟨mode, -, -⟩ := talkRead_kept x talk depth
  rw [callRead_held] at turned
  obtain ⟨frClosed, rfClosed⟩ := (talkRead_paths x talk depth).1 turned
  have wantsFR : (x.talkRead talk depth).wantsFR = (x.talkRead talk depth).held := by
    unfold Intercom.wantsFR
    rw [mode, ptt]
  have wantsRF : (x.talkRead talk depth).wantsRF = !(x.talkRead talk depth).held := by
    unfold Intercom.wantsRF
    rw [mode, ptt]
  rw [wantsFR] at frClosed
  rw [wantsRF] at rfClosed
  rw [fr, rf, callRead_held, Ne, Ne, frClosed, rfClosed]
  exact ⟨fun held => by simp [held], fun released => by simp [released]⟩

/-- Without a turn and without a press taken the paths stand (R154). -/
theorem linesRead_still {x : Intercom} {talk call : Bool} {depth : Nat}
    (same : ((x.talkRead talk depth).callRead call depth).held = x.held)
    (untaken : ¬(x.mode = .privateTalk ∧ x.callPressed call = true)) :
    ((x.talkRead talk depth).callRead call depth).fr = x.fr ∧ ((x.talkRead talk depth).callRead call depth).rf = x.rf := by
  obtain ⟨fr, rf⟩ := linesRead_untaken talk depth untaken
  rw [callRead_held] at same
  obtain ⟨frSame, rfSame⟩ := (talkRead_paths x talk depth).2 same
  exact ⟨fr.trans frSame, rf.trans rfSame⟩

/-- A press that starts the chime asks for the passenger's path while push-to-talk is RELEASED (R154, R159). -/
theorem linesRead_begun {x : Intercom} {talk call : Bool} {depth : Nat} (taken : x.callPressed call = true) (mode : x.mode = .privateTalk)
    (absent : x.chime = none) (released : ((x.talkRead talk depth).callRead call depth).held = false) :
    ((x.talkRead talk depth).callRead call depth).rf.state ≠ .closed := by
  obtain ⟨sameMode, pressed, chime⟩ := talkRead_kept x talk depth
  rw [callRead_held] at released
  exact callRead_begun depth ((pressed call).trans taken) (sameMode.trans mode) (chime.trans absent) released

theorem callPressed_iff (x : Intercom) (call : Bool) :
    x.callPressed call = true ↔ call = true ∧ x.callNewer = true ∧ x.callOlder = false := by
  simp [Intercom.callPressed, and_assoc]

/-- A press is not taken when one of its conditions fails (R159). -/
theorem callPressed_fails {x : Intercom} {call : Bool}
    (fails : x.mode ≠ .privateTalk ∨ call = false ∨ x.callNewer = false ∨ x.callOlder = true) :
    ¬(x.mode = .privateTalk ∧ x.callPressed call = true) := by
  rw [callPressed_iff]
  rintro ⟨mode, pressed, newer, older⟩
  simp [mode, pressed, newer, older] at fails

/-- What a tick with no Part clear in flight leaves of the sign, the intercom and the Console port. -/
theorem tick_out (l : Lines) {s : State} (idle : s.partClear = .idle) :
    SignTicked { s with pins := l, timeBase := s.nextCount } s.fareNext (s.tick l).sign
      ∧ (s.tick l).intercom = (s.intercom.talkRead l.talk s.tariffs.config.depth).callRead l.call s.tariffs.config.depth
      ∧ (s.intercom.mode = .privateTalk ∧ s.intercom.callPressed l.call = true → ((s.tick l).port .console).holds .call = true)
      ∧ (¬(s.intercom.mode = .privateTalk ∧ s.intercom.callPressed l.call = true) → s.fareNext = false →
          (s.tick l).port .console = s.port .console) := by
  obtain ⟨sign, intercom, -, called, console⟩ := preTick_out l s
  obtain ⟨-, -, -, -, -, -, -, -, -, -, sameIntercom, -⟩ := kept_of_beyondFiling (ticked_beyondFiling l s)
  rw [tick_idle l idle]
  refine ⟨sign.held (ticked_sign l s), sameIntercom.trans intercom, fun taken => ticked_told l s _ _ (called taken),
    fun untaken noFare => ?_⟩
  rw [ticked_noFare l noFare]
  exact console untaken noFare

/-- Settles O37: what each unit's work leaves is said once and carried past the rest of the tick. The filing that a fare tick begins keeps
the sign but for its target, the intercom and every notice already told; a hire is reached by the Fare Engine's tick alone. -/
theorem ticksAndFareTicks : Obligations.TicksAndFareTicks := by
  refine ⟨fun l s run => ?_, fun sl l s run fare idle steady unclaimed => ?_, fun l s run idle => ?_⟩
  · obtain ⟨timeBase, pins, clock, clockStatus, power, nextHire, vacantRem, odoRem, active, config, alarm⟩ := tick_kept l s
    obtain ⟨armed, pressRun, releaseRun⟩ := (preTick_out l s).alarm
    obtain ⟨armedRead, pressRead, releaseRead⟩ := readLine_out s.alarm l.alarm
    rw [← alarm] at armed pressRun releaseRun
    exact ⟨s.tick l, congrArg Host.Outcome.next (whenRunning_eq run _), timeBase, pins, clock, clockStatus, power.trans run, nextHire,
      vacantRem, odoRem, active, config, armed.trans armedRead, pressRun.trans pressRead, releaseRun.trans releaseRead,
      fun noFare => tick_noFare l (beq_eq_false_iff_ne.2 noFare)⟩
  · refine ⟨s.tick l, congrArg Host.Outcome.next (mk_tickWith run fare), (tick_kept l s).1, fun suspended => ?_, fun running => ?_⟩
    · rw [tick_hire fare idle steady unclaimed (by simp [suspended]) (by simp [suspended])]
      exact fareTick_not_running _ _ _ (by simp [Hire.running, suspended])
    · have stage := (running_iff _).1 running
      have notBooked : (s.hire sl).stage ≠ .booked := by rcases stage with is | is <;> simp [is]
      have notStopped : (s.hire sl).stage ≠ .stopped := by rcases stage with is | is <;> simp [is]
      rw [tick_hire fare idle steady unclaimed notBooked notStopped]
      exact ⟨fun unmetered => fareTick_unmetered (meteredBy_none unmetered), fun tf x metered kept tariff one band =>
        fareTick_metered running (meteredBy_some metered kept tariff) one band⟩
  · obtain ⟨sign, intercom, called, console⟩ := tick_out l idle
    obtain ⟨step, test, checks, agrees, differs⟩ := tick_sign sign
    obtain ⟨t, ht⟩ : ∃ t, t = s.tick l := ⟨_, rfl⟩
    have ticks : exec (.tick l) s = .next t := ht ▸ congrArg Host.Outcome.next (whenRunning_eq run _)
    rw [← ht] at step test checks agrees differs intercom called console
    obtain ⟨talkOlder, talkNewer, callOlder, callNewer, held, mode, chime⟩ :
        t.intercom.talkOlder = s.intercom.talkNewer ∧ t.intercom.talkNewer = l.talk
          ∧ t.intercom.callOlder = s.intercom.callNewer ∧ t.intercom.callNewer = l.call
          ∧ t.intercom.held = (if l.talk ≠ s.intercom.held ∧ s.intercom.talkNewer = l.talk then l.talk else s.intercom.held)
          ∧ t.intercom.mode = s.intercom.mode
          ∧ t.intercom.chime = (if s.intercom.callPressed l.call = true ∧ s.intercom.mode = .privateTalk
              then some (s.intercom.chime.getD ⟨3, 8000, 0⟩) else s.intercom.chime) := by
      rw [intercom, linesRead_out]
      exact ⟨rfl, rfl, rfl, rfl, rfl, rfl, rfl⟩
    refine ⟨t, ticks, step, test, checks, agrees, differs, talkOlder, talkNewer, callOlder, callNewer, held, mode, ?_, ?_,
      fun line newer older inPrivate => ?_, fun fails => ?_⟩
    · rw [intercom]
      exact fun ptt turned => linesRead_ptt _ _ _ ptt turned
    · rw [intercom]
      exact fun same untaken => linesRead_still same untaken
    · have taken : s.intercom.callPressed l.call = true := (callPressed_iff _ _).2 ⟨line, newer, older⟩
      rw [if_pos ⟨taken, inPrivate⟩] at chime
      refine ⟨called ⟨inPrivate, taken⟩, fun absent => ⟨?_, ?_⟩, fun c sounding => ?_⟩
      · rw [chime, absent]
        rfl
      · rw [intercom]
        exact fun released => linesRead_begun taken inPrivate absent released
      · rw [chime, sounding]
        rfl
    · have untaken := callPressed_fails fails
      rw [if_neg (fun is => untaken is.symm)] at chime
      exact ⟨chime, console untaken⟩

end Sys2Proof.Machine
end

section
/-! What may stand in the slot of a hire under the laws of claims and balances (R72, R74, R81): a record follows another when it is
claimed only where the other was, by the same port, in a stage that allows it, and its entries commit no more than its total due if the
other's did not. Each change the part makes to a hire follows it. -/

namespace Sys2Proof.Machine

/-! ### What the entries of a hire commit -/

/-- What an entry takes of the total due: its amount while it is PENDING or APPROVED (R3, R81). -/
def Payment.committed (e : Payment) : Nat := if e.isApproved || e.isPending then e.amount else 0

/-- What the entries of a list take together. -/
def committedBy (ps : List Payment) : Nat := (ps.map Payment.committed).sum

@[simp] theorem committedBy_nil : committedBy [] = 0 := rfl

@[simp] theorem committedBy_cons (e : Payment) (ps : List Payment) : committedBy (e :: ps) = e.committed + committedBy ps := by
  simp [committedBy]

@[simp] theorem committedBy_append (ps qs : List Payment) : committedBy (ps ++ qs) = committedBy ps + committedBy qs := by
  simp [committedBy]

theorem committed_le_amount (e : Payment) : e.committed ≤ e.amount := by
  unfold Payment.committed
  split <;> omega

theorem committed_expired (e : Payment) : ({ e with state := .expired } : Payment).committed = 0 := rfl

theorem committed_lapse (e : Payment) : e.lapse.committed ≤ e.committed := by
  unfold Payment.lapse
  split
  · rw [committed_expired]
    exact Nat.zero_le _
  · exact Nat.le_refl _

theorem committed_expireAt (n : Nat) (e : Payment) : (e.expireAt n).committed ≤ e.committed := by
  unfold Payment.expireAt
  split
  · rw [committed_expired]
    exact Nat.zero_le _
  · exact Nat.le_refl _

/-- A PENDING entry commits its amount already, so no result raises what it commits (R83). -/
theorem committed_answered {e : Payment} (pending : e.state = .pending) (st : PayState) (r : Route) (ref : BitVec 96) :
    (e.answered st r ref).committed ≤ e.committed := by
  have all : e.committed = e.amount := by simp [Payment.committed, Payment.isPending, pending]
  rw [all]
  exact committed_le_amount (e.answered st r ref)

/-- Entries that each commit no more commit no more together. -/
theorem committedBy_map_le {f : Payment → Payment} (less : ∀ e, (f e).committed ≤ e.committed) (ps : List Payment) :
    committedBy (ps.map f) ≤ committedBy ps := by
  induction ps with
  | nil => exact Nat.le_refl _
  | cons e ps ih =>
    rw [List.map_cons, committedBy_cons, committedBy_cons]
    exact Nat.add_le_add (less e) ih

/-- An entry put in the place of one that commits no less. -/
theorem committedBy_set_le {ps : List Payment} {i : Nat} {e x : Payment} (at_i : ps[i]? = some e) (less : x.committed ≤ e.committed) :
    committedBy (ps.set i x) ≤ committedBy ps := by
  induction ps generalizing i with
  | nil => cases at_i
  | cons y ps ih =>
    cases i with
    | zero =>
      obtain rfl : y = e := by simpa using at_i
      rw [List.set_cons_zero, committedBy_cons, committedBy_cons]
      exact Nat.add_le_add_right less _
    | succ i =>
      rw [List.set_cons_succ, committedBy_cons, committedBy_cons]
      exact Nat.add_le_add_left (ih (by simpa using at_i)) _

/-- The approved and the pending sum together are what the entries commit (R3). -/
theorem sums_eq_committedBy (h : Hire) : h.approvedSum + h.pendingSum = committedBy h.payments := by
  unfold Hire.approvedSum Hire.pendingSum sumWhere
  induction h.payments with
  | nil => rfl
  | cons e ps ih =>
    rw [committedBy_cons, ← ih]
    cases st : e.state <;> simp [Payment.committed, Payment.isApproved, Payment.isPending, st] <;> omega

/-- No more is approved and pending than is due (R81). -/
def Hire.covered (h : Hire) : Prop := committedBy h.payments ≤ h.totalDue

theorem balanceLaw_iff (t : HireTable) : BalanceLaw t ↔ ∀ sl, (t.get sl).covered := by
  simp only [BalanceLaw, Hire.covered, sums_eq_committedBy]

theorem balance_eq (h : Hire) : h.balance = h.totalDue - committedBy h.payments := by
  rw [← sums_eq_committedBy, ← Nat.sub_sub]
  rfl

/-- An entry within the balance leaves the hire covered (R80, R90). -/
theorem covered_withPayment {h : Hire} {e : Payment} (covered : h.covered) (fits : e.amount ≤ h.balance) : (h.withPayment e).covered := by
  have due : committedBy h.payments ≤ h.totalDue := covered
  have entry := committed_le_amount e
  rw [balance_eq] at fits
  show committedBy (h.payments ++ [e]) ≤ h.totalDue
  rw [committedBy_append, committedBy_cons, committedBy_nil]
  omega

/-! ### One record in the place of another -/

/-- A claim granted or renewed is the one port's (R74, R75). -/
theorem claimed_claimedBy_iff (s : State) (p q : PortId) (h : Hire) : (s.claimed p h).claimedBy q = true ↔ p = q := beq_iff_eq

/-- The record may stand where the other stood, as far as the laws of claims and balances go. -/
structure Hire.Follows (x h : Hire) : Prop where
  stage : h.claimLaw → x.claimLaw
  port : ∀ p, x.claimedBy p = true → h.claimedBy p = true
  due : h.covered → x.covered

namespace Hire.Follows

variable {x y h : Hire}

theorem refl (h : Hire) : h.Follows h := ⟨id, fun _ => id, id⟩

theorem trans (f : y.Follows x) (g : x.Follows h) : y.Follows h :=
  ⟨fun law => f.stage (g.stage law), fun p claimed => g.port p (f.port p claimed), fun covered => f.due (g.due covered)⟩

/-- An unclaimed record obeys the law of claims whatever its stage. -/
theorem of_unclaimed (unclaimed : x.claim = none) (due : h.covered → x.covered) : x.Follows h :=
  ⟨fun _ claimed => by simp [unclaimed] at claimed, fun p claimed => by simp [Hire.claimedBy, unclaimed] at claimed, due⟩

/-- A record with no claim and no entry may stand anywhere. -/
theorem of_fresh (unclaimed : x.claim = none) (noEntry : x.payments = []) : x.Follows h :=
  of_unclaimed unclaimed fun _ => by
    unfold Hire.covered
    rw [noEntry]
    exact Nat.zero_le _

/-- A record with the same claim that is STOPPED where the other was. -/
theorem of_sameClaim (claim : x.claim = h.claim) (stops : h.stage = .stopped → x.stage = .stopped) (due : h.covered → x.covered) :
    x.Follows h := by
  refine ⟨fun law claimed => stops (law (claim ▸ claimed)), fun p claimed => ?_, due⟩
  unfold Hire.claimedBy at claimed ⊢
  rw [← claim]
  exact claimed

/-- A record with the same claim and entries and no less due. -/
theorem of_sameEntries (claim : x.claim = h.claim) (stops : h.stage = .stopped → x.stage = .stopped) (payments : x.payments = h.payments)
    (due : h.totalDue ≤ x.totalDue) : x.Follows h :=
  of_sameClaim claim stops fun covered => by
    unfold Hire.covered at covered ⊢
    rw [payments]
    exact covered.trans due

/-- A record with the same claim whose entries commit no more. -/
theorem of_lessCommitted (claim : x.claim = h.claim) (stage : x.stage = h.stage) (less : committedBy x.payments ≤ committedBy h.payments)
    (due : x.totalDue = h.totalDue) : x.Follows h :=
  of_sameClaim claim (fun stopped => stage.trans stopped) fun covered => by
    unfold Hire.covered at covered ⊢
    rw [due]
    exact less.trans covered

/-! ### The Hire Controller -/

theorem filed (unclaimed : h.claim = none) (o : HireOutcome) : (h.filed o).Follows h := of_unclaimed unclaimed id

theorem suspended (running : h.running = true) : h.suspended.Follows h :=
  of_sameEntries rfl (fun stopped => by simp [Hire.running, stopped] at running) rfl (Nat.le_refl _)

theorem stoppedAt (h : Hire) (now : ClockTime) : (h.stoppedAt now).Follows h := of_sameEntries rfl (fun _ => rfl) rfl (Nat.le_refl _)

theorem resumed (suspended : h.stage = .suspended) : h.resumed.Follows h :=
  of_sameEntries rfl (fun stopped => by simp [suspended] at stopped) rfl (Nat.le_refl _)

/-! ### The Fare Engine -/

theorem travel (k : Nat) (h : Hire) : (h.travel k).Follows h := of_sameEntries rfl id rfl (Nat.le_refl _)

theorem distTrigger (m : BandMode) (h : Hire) : (h.distTrigger m).Follows h := by
  cases m <;> exact of_sameEntries rfl id rfl (Nat.le_refl _)

theorem timeTrigger (m : BandMode) (h : Hire) : (h.timeTrigger m).Follows h := by
  cases m <;> exact of_sameEntries rfl id rfl (Nat.le_refl _)

/-- A step raises what is due, and the stage of a STOPPED hire stands (R43, R44). -/
theorem charge (h : Hire) (amount share : Nat) : (h.charge amount share).Follows h := by
  refine of_sameEntries rfl (fun stopped => ?_) rfl ?_
  · show (if h.stage = .engaged then Stage.metering else h.stage) = .stopped
    rw [stopped]
    rfl
  · exact Nat.add_le_add_right (Nat.le_add_right _ _) _

theorem chargeDistance (k n : Nat) (t : Tariff) (b : Band) (fuel : Nat) : ∀ h : Hire, (chargeDistance k n t b fuel h).Follows h := by
  induction fuel with
  | zero => exact refl
  | succ fuel ih =>
    intro h
    unfold Machine.chargeDistance
    split
    · refine (ih _).trans ((charge _ _ _).trans ((distTrigger _ _).trans ?_))
      exact of_sameEntries rfl id rfl (Nat.le_refl _)
    · exact refl h

theorem advance (k n : Nat) (t : Tariff) (b : Band) (h : Hire) : (h.advance k n t b).Follows h := by
  unfold Hire.advance
  split
  · exact refl h
  · refine (chargeDistance _ _ _ _ _ _).trans ?_
    exact of_sameEntries rfl id rfl (Nat.le_refl _)

theorem meterPulse (k n : Nat) (t : Tariff) (h : Hire) : (h.meterPulse k n t).Follows h := by
  unfold Hire.meterPulse
  dsimp only
  split
  · exact of_sameEntries rfl id rfl (Nat.le_refl _)
  · split
    · exact refl h
    · exact advance _ _ _ _ _

theorem pulse (k n : Nat) (active : TariffSet) (h : Hire) : (h.pulse k n active).Follows h := by
  unfold Hire.pulse
  split
  · split
    · exact (meterPulse _ _ _ _).trans (travel k h)
    · exact travel k h
  · split
    · exact travel k h
    · exact refl h

theorem fareTick (n : Nat) (active : TariffSet) (h : Hire) : (h.fareTick n active).Follows h := by
  have timed : ({ h with timeAcc := h.timeAcc + 1 } : Hire).Follows h := of_sameEntries rfl id rfl (Nat.le_refl _)
  unfold Hire.fareTick
  split
  · split
    · exact refl h
    · split
      · exact refl h
      · split
        · exact refl h
        · dsimp only
          split
          · exact (charge _ _ _).trans ((timeTrigger _ _).trans timed)
          · exact timed
  · exact refl h

/-! ### The Settlement Unit -/

/-- The claim renewed (R75). -/
theorem renewed {p : PortId} (s : State) (own : h.claimedBy p = true) : (s.claimed p h).Follows h := by
  obtain ⟨c, claim, -⟩ := (claimedBy_iff h p).1 own
  refine ⟨fun law _ => law (by simp [claim]), fun q claimed => ?_, id⟩
  obtain rfl := (claimed_claimedBy_iff s p q h).1 claimed
  exact own

theorem released (h : Hire) : h.released.Follows h :=
  of_unclaimed rfl fun covered => (committedBy_map_le committed_lapse h.payments).trans covered

theorem dueExpired (n : Nat) (h : Hire) : (h.dueExpired n).Follows h :=
  of_lessCommitted rfl rfl (committedBy_map_le (committed_expireAt n) _) rfl

theorem withPayment {e : Payment} (fits : e.amount ≤ h.balance) : (h.withPayment e).Follows h :=
  of_sameClaim rfl id fun covered => covered_withPayment covered fits

/-- An entry replaced by one that commits no more. -/
theorem putEntry {i : Nat} {e e' : Payment} (entry : h.entry i = some e) (less : e'.committed ≤ e.committed) :
    (h.putEntry i e').Follows h := by
  refine of_lessCommitted rfl rfl (committedBy_set_le (e := e) ?_ less) rfl
  unfold Hire.entry at entry
  split at entry
  · cases entry
  · exact entry

/-! ### Start-ups -/

theorem withoutTariff (h : Hire) : h.withoutTariff.Follows h := of_sameEntries rfl id rfl (Nat.le_refl _)

theorem remainderBelow (k : Nat) (h : Hire) : (h.remainderBelow k).Follows h := of_sameEntries rfl id rfl (Nat.le_refl _)

theorem restored (h : Hire) : h.restored.Follows h := by
  unfold Hire.restored
  split
  · rename_i engaged
    exact of_sameEntries rfl (fun stopped => by simp [engaged] at stopped) rfl (Nat.le_refl _)
  · rename_i metering
    exact of_sameEntries rfl (fun stopped => by simp [metering] at stopped) rfl (Nat.le_refl _)
  · exact released h
  · exact refl h

end Hire.Follows
end Sys2Proof.Machine
end

section
/-! The laws of the offline ceiling, the claims, the balances and the counters (R72, R74, R81, R84, R105) under the operations that
requests, ticks and filings share: what an operation does to the hires and to the guarded parts of the shift decides all four. -/

namespace Sys2Proof.Machine

/-- What the laws read of Shift Accounting. -/
def ShiftAccounting.guarded (x : ShiftAccounting) : Nat × Nat × Nat := (x.offlineTotal, x.ceiling, x.counters.length)

theorem count_guarded (x : ShiftAccounting) (id : CounterId) (n : Nat) : (x.count id n).guarded = x.guarded := by
  simp [ShiftAccounting.guarded, ShiftAccounting.count]

theorem countAll_guarded (adds : List (CounterId × Nat)) : ∀ x : ShiftAccounting, (x.countAll adds).guarded = x.guarded := by
  induction adds with
  | nil => exact fun _ => rfl
  | cons a adds ih => exact fun x => (ih _).trans (count_guarded x a.1 a.2)

theorem fileHire_guarded (x : ShiftAccounting) (h : Hire) : (x.fileHire h).guarded = x.guarded :=
  countAll_guarded h.filedAdditions x

theorem askTotals_guarded (x : ShiftAccounting) : x.askTotals.guarded = x.guarded := by
  rw [(askTotals_parts x).1]
  rfl

theorem addOdometer_guarded (x : ShiftAccounting) (n : Nat) : (x.addOdometer n).guarded = x.guarded := by
  unfold ShiftAccounting.addOdometer
  dsimp only
  split
  · exact askTotals_guarded _
  · rfl

theorem taken_guarded (x : ShiftAccounting) : x.taken.guarded = x.guarded := rfl

theorem storeLoaded_guarded (x : ShiftAccounting) (u : StartUp) : (x.storeLoaded u).guarded = x.guarded := rfl

theorem nextWrite_guarded (x : ShiftAccounting) : x.nextWrite.guarded = x.guarded := by
  unfold ShiftAccounting.nextWrite
  split <;> rfl

theorem writeDone_guarded (x : ShiftAccounting) (w : TotalsWrite) : (x.writeDone w).guarded = x.guarded := nextWrite_guarded _

theorem writeFailed_guarded (x : ShiftAccounting) (w : TotalsWrite) : (x.writeFailed w).guarded = x.guarded := by
  unfold ShiftAccounting.writeFailed
  split
  · rfl
  · exact nextWrite_guarded _

/-! ### The law of claims by slot -/

theorem claimLaw_iff (t : HireTable) : ClaimLaw t ↔ (∀ sl, (t.get sl).claimLaw)
    ∧ ∀ p sl other, other ≠ sl → (t.get sl).claimedBy p = true → (t.get other).claimedBy p = false := by
  constructor
  · rintro ⟨ha, hb, hc, single⟩
    refine ⟨fun sl => by cases sl <;> assumption, fun p sl other ne here => Bool.eq_false_iff.2 fun there => ?_⟩
    obtain ⟨ab, ac, bc⟩ := single p
    exact match sl, other with
      | .a, .a | .b, .b | .c, .c => ne rfl
      | .a, .b => ab ⟨here, there⟩
      | .b, .a => ab ⟨there, here⟩
      | .a, .c => ac ⟨here, there⟩
      | .c, .a => ac ⟨there, here⟩
      | .b, .c => bc ⟨here, there⟩
      | .c, .b => bc ⟨there, here⟩
  · rintro ⟨each, single⟩
    refine ⟨each .a, each .b, each .c, fun p => ⟨fun ⟨x, y⟩ => ?_, fun ⟨x, y⟩ => ?_, fun ⟨x, y⟩ => ?_⟩⟩
    · exact absurd y (Bool.eq_false_iff.1 (single p .a .b (by decide) x))
    · exact absurd y (Bool.eq_false_iff.1 (single p .a .c (by decide) x))
    · exact absurd y (Bool.eq_false_iff.1 (single p .b .c (by decide) x))

/-- Records that each follow the one before them leave the law of claims. -/
theorem claimLaw_of_follows {t u : HireTable} (follows : ∀ sl, (u.get sl).Follows (t.get sl)) (law : ClaimLaw t) : ClaimLaw u := by
  obtain ⟨each, single⟩ := (claimLaw_iff t).1 law
  refine (claimLaw_iff u).2 ⟨fun sl => (follows sl).stage (each sl), fun p sl other ne here => Bool.eq_false_iff.2 fun there => ?_⟩
  have free := single p sl other ne ((follows sl).port p here)
  exact absurd ((follows other).port p there) (Bool.eq_false_iff.1 free)

theorem holdsClaim_false_iff (s : State) (p : PortId) : s.holdsClaim p = false ↔ ∀ sl, (s.hire sl).claimedBy p = false := by
  refine ⟨fun h sl => ?_, fun h => ?_⟩
  · obtain ⟨⟨a, b⟩, c⟩ : (s.hires.a.claimedBy p = false ∧ s.hires.b.claimedBy p = false) ∧ s.hires.c.claimedBy p = false := by
      simpa [State.holdsClaim] using h
    cases sl <;> assumption
  · have a : s.hires.a.claimedBy p = false := h .a
    have b : s.hires.b.claimedBy p = false := h .b
    have c : s.hires.c.claimedBy p = false := h .c
    simp [State.holdsClaim, a, b, c]

/-- A claim granted on a STOPPED hire to a port that holds no other (R74). -/
theorem claimLaw_granted {s : State} {sl : SlotId} {p : PortId} (stopped : (s.hire sl).stage = .stopped) (free : s.holdsClaim p = false)
    (law : ClaimLaw s.hires) : ClaimLaw (s.putHire sl (s.claimed p (s.hire sl))).hires := by
  obtain ⟨each, single⟩ := (claimLaw_iff _).1 law
  have none := (holdsClaim_false_iff s p).1 free
  have port : ∀ q, (s.claimed p (s.hire sl)).claimedBy q = true → q = p := fun q claimed =>
    ((claimed_claimedBy_iff s p q _).1 claimed).symm
  refine (claimLaw_iff _).2 ⟨fun x => ?_, fun q x other ne here => ?_⟩
  · by_cases same : x = sl
    · subst same
      rw [putHire_hires, hires_get_put_same]
      exact fun _ => stopped
    · rw [putHire_hires, hires_get_put_other _ _ same]
      exact each x
  · rw [putHire_hires] at here ⊢
    by_cases same : x = sl
    · subst same
      rw [hires_get_put_same] at here
      rw [hires_get_put_other _ _ ne, port q here]
      exact none other
    · rw [hires_get_put_other _ _ same] at here
      by_cases otherSame : other = sl
      · subst otherSame
        rw [hires_get_put_same, Bool.eq_false_iff]
        intro claimed
        obtain rfl := port q claimed
        exact absurd here (Bool.eq_false_iff.1 (none x))
      · rw [hires_get_put_other _ _ otherSame]
        exact single q x other ne here

/-- Each of the four laws holds of a state if it held of the state it came from. -/
structure MoneyKept (r s : State) : Prop where
  ceiling : CeilingLaw r.shift → CeilingLaw s.shift
  claims : ClaimLaw r.hires → ClaimLaw s.hires
  balances : BalanceLaw r.hires → BalanceLaw s.hires
  counters : CountersLaw r.shift → CountersLaw s.shift

/-- What the four laws are read from. -/
def State.money (s : State) : HireTable × ShiftAccounting := (s.hires, s.shift)

@[simp] theorem rederive_money (s : State) : s.rederive.money = s.money := by
  rw [rederive_only]
  rfl

@[simp] theorem updateLow_money (s : State) : s.updateLow.money = s.money := by
  rw [updateLow_only]
  rfl

@[simp] theorem updateLowFrom_money (s : State) (old : Nat) : (s.updateLowFrom old).money = s.money := by
  rw [updateLowFrom_out]
  rfl

@[simp] theorem handOver_money (s : State) (b : RecordBody) : (s.handOver b).money = s.money := by
  unfold State.handOver
  split
  · exact updateLow_money _
  · rfl

@[simp] theorem faultRule_money (s : State) (before : JournalState) : (s.faultRule before).money = s.money := by
  unfold State.faultRule
  dsimp only
  split <;> split <;> rfl

@[simp] theorem partClearOn_money (s : State) : s.partClearOn.money = s.money := by
  obtain ⟨_, _, _, _, _, _, _, on⟩ := partClearOn_out s
  rw [on]
  rfl

@[simp] theorem preTick_money (l : Lines) (s : State) : (preTick l s).money = s.money := by
  rw [pre_e]
  rfl

namespace MoneyKept

variable {r s : State}

theorem refl (s : State) : MoneyKept s s := ⟨id, id, id, id⟩

/-- What leaves the hires and the shift. -/
theorem elsewhere (h : MoneyKept r s) {t : State} (same : t.money = s.money) : MoneyKept r t := by
  obtain ⟨hires, shift⟩ : t.hires = s.hires ∧ t.shift = s.shift := by simpa [State.money] using same
  exact ⟨shift ▸ h.ceiling, hires ▸ h.claims, hires ▸ h.balances, shift ▸ h.counters⟩

theorem withShift (h : MoneyKept r s) {x : ShiftAccounting} (ceiling : CeilingLaw s.shift → CeilingLaw x)
    (counters : CountersLaw s.shift → CountersLaw x) : MoneyKept r { s with shift := x } :=
  ⟨fun a => ceiling (h.ceiling a), h.claims, h.balances, fun a => counters (h.counters a)⟩

/-- What changes the shift beside its guarded parts. -/
theorem withAccounts (h : MoneyKept r s) {x : ShiftAccounting} (same : x.guarded = s.shift.guarded) : MoneyKept r { s with shift := x } := by
  obtain ⟨offline, ceiling, counters⟩ : x.offlineTotal = s.shift.offlineTotal ∧ x.ceiling = s.shift.ceiling
      ∧ x.counters.length = s.shift.counters.length := by simpa [ShiftAccounting.guarded] using same
  refine h.withShift (fun law => ?_) fun law => counters.trans law
  unfold CeilingLaw
  rw [offline, ceiling]
  exact law

/-- What leaves in each slot a record that follows the one before it, and the guarded parts of the shift. -/
theorem moved (h : MoneyKept r s) {t : State} (follows : ∀ sl, (t.hire sl).Follows (s.hire sl))
    (same : t.shift.guarded = s.shift.guarded) : MoneyKept r t := by
  have shift := h.withAccounts same
  exact ⟨shift.ceiling, fun a => claimLaw_of_follows follows (h.claims a),
    fun a => (balanceLaw_iff _).2 fun sl => (follows sl).due ((balanceLaw_iff _).1 (h.balances a) sl), shift.counters⟩

theorem putHire (h : MoneyKept r s) {sl : SlotId} {x : Hire} (follows : x.Follows (s.hire sl)) : MoneyKept r (s.putHire sl x) := by
  refine h.moved (fun other => ?_) rfl
  by_cases same : other = sl
  · subst same
    rw [hire_putHire_same]
    exact follows
  · rw [hire_putHire_other _ _ same]
    exact Hire.Follows.refl _

theorem count (h : MoneyKept r s) (id : CounterId) (n : Nat) : MoneyKept r (s.count id n) := h.withAccounts (count_guarded _ _ _)

theorem askTotals (h : MoneyKept r s) : MoneyKept r s.askTotals := h.withAccounts (askTotals_guarded _)

theorem putPort (h : MoneyKept r s) (p : PortId) (x : Port) : MoneyKept r (s.putPort p x) := h.elsewhere rfl

theorem notify (h : MoneyKept r s) (p : PortId) (k : NoticeKind) : MoneyKept r (s.notify p k) := h.elsewhere rfl

theorem rederive (h : MoneyKept r s) : MoneyKept r s.rederive := h.elsewhere (rederive_money s)

theorem enterStage (h : MoneyKept r s) {sl : SlotId} {x : Hire} (follows : x.Follows (s.hire sl)) : MoneyKept r (s.enterStage sl x) := by
  refine rederive ?_
  exact (h.putHire follows).elsewhere rfl

/-! ### Filing -/

theorem updateLow (h : MoneyKept r s) : MoneyKept r s.updateLow := h.elsewhere (updateLow_money s)

theorem handOver (h : MoneyKept r s) (b : RecordBody) : MoneyKept r (s.handOver b) := h.elsewhere (handOver_money s b)

theorem beginSummary (h : MoneyKept r s) : MoneyKept r s.beginSummary := by
  unfold State.beginSummary
  split
  · refine handOver ?_ _
    exact h.withAccounts (x := { s.shift with summary := true }) rfl
  · exact h

/-- A hire filed leaves its slot FREE and its figures in the counters (R23, R106). -/
theorem completeHire (h : MoneyKept r s) (sl : SlotId) : MoneyKept r (s.completeHire sl) :=
  (((h.withAccounts (fileHire_guarded _ _)).enterStage (Hire.Follows.of_fresh rfl rfl)).askTotals).beginSummary

theorem completeShift (h : MoneyKept r s) : MoneyKept r s.completeShift := by
  refine askTotals (rederive ?_)
  exact (h.withAccounts (x := { s.shift with state := .closed, summary := false }) rfl).elsewhere rfl

theorem complete (h : MoneyKept r s) (b : RecordBody) : MoneyKept r (s.complete b) :=
  match b with
  | .hire x => h.completeHire x.slot
  | .shift _ _ _ _ => h.completeShift
  | .lateApproval _ _ _ _ _ _ => h
  | .activation _ => h
  | .retentionLost => h

theorem noSlot (h : MoneyKept r s) (x : JournalRecord) (rest : List JournalRecord) : MoneyKept r (s.noSlot x rest) := by
  unfold State.noSlot
  dsimp only
  split
  · refine complete (updateLow ?_) _
    exact h.elsewhere rfl
  · exact updateLow (h.elsewhere rfl)

theorem beginFiling (n : Nat) : ∀ {s : State}, MoneyKept r s → MoneyKept r (s.beginFiling n) := by
  induction n with
  | zero => exact id
  | succ n ih =>
    intro s h
    unfold State.beginFiling
    split
    · split
      · exact h.elsewhere rfl
      · exact ih (h.noSlot _ _)
    · exact h

theorem fileOn (h : MoneyKept r s) : MoneyKept r s.fileOn := beginFiling _ h

theorem verifyPass (h : MoneyKept r s) : MoneyKept r s.verifyPass := by
  unfold State.verifyPass
  split
  · refine fileOn (complete (updateLow ?_) _)
    exact h.elsewhere rfl
  · exact h

theorem verifyFail (h : MoneyKept r s) : MoneyKept r s.verifyFail := by
  unfold State.verifyFail
  split
  · rename_i f flight
    have retired : MoneyKept r { s with journal := s.journal.retire f } := h.elsewhere rfl
    exact (retired.elsewhere (faultRule_money _ _)).updateLow.fileOn
  · exact h

/-! ### Settlement and expiry -/

/-- Only an unclaimed hire enters FILING (R19, R20). -/
theorem enterFiling (h : MoneyKept r s) {sl : SlotId} (unclaimed : (s.hire sl).claim = none) (o : HireOutcome) :
    MoneyKept r (s.enterFiling sl o) := by
  have filed := (h.putHire (Hire.Follows.filed unclaimed o)).handOver (.hire (((s.hire sl).filed o).record sl))
  refine filed.enterStage ?_
  unfold State.hire
  rw [hires_handOver, putHire_hires, hires_get_put_same]
  exact Hire.Follows.refl _

theorem settle (h : MoneyKept r s) (sl : SlotId) : MoneyKept r (s.settle sl) := by
  unfold State.settle
  split
  · rename_i settled
    obtain ⟨-, unclaimed, -⟩ := (settled_iff _).1 settled
    exact h.enterFiling unclaimed _
  · exact h

theorem settleAndFile (h : MoneyKept r s) (sl : SlotId) : MoneyKept r (s.settleAndFile sl) := by
  unfold State.settleAndFile
  split
  · rename_i settled
    obtain ⟨-, unclaimed, -⟩ := (settled_iff _).1 settled
    exact (h.enterFiling unclaimed _).fileOn
  · exact h

theorem renew (h : MoneyKept r s) (p : PortId) (sl : SlotId) : MoneyKept r (s.renew p sl) := by
  unfold State.renew
  split
  · rename_i own
    exact h.putHire (Hire.Follows.renewed s own)
  · exact h

theorem lateApproval (h : MoneyKept r s) (sl : SlotId) (n : Nat) (m : PayMethod) (a t : Nat) (ref : BitVec 96) :
    MoneyKept r (s.lateApproval sl n m a t ref) := by
  unfold State.lateApproval
  dsimp only
  split
  · exact (((h.count _ _).handOver _).notify _ _).fileOn
  · exact ((h.count _ _).notify _ _).fileOn

theorem expirePayments (h : MoneyKept r s) (sl : SlotId) : MoneyKept r (s.expirePayments sl) := by
  have expired := h.putHire (Hire.Follows.dueExpired s.timeBase (s.hire sl))
  unfold State.expirePayments
  dsimp only
  split
  · split
    · exact (expired.notify _ _).settle _
    · exact expired.settle _
  · exact h

theorem expireClaim (h : MoneyKept r s) (sl : SlotId) : MoneyKept r (s.expireClaim sl) := by
  unfold State.expireClaim
  dsimp only
  split
  · split
    · exact (((h.putHire (Hire.Follows.released _)).notify _ _).notify _ _).settle _
    · exact h
  · exact h

theorem expireSlot (h : MoneyKept r s) (sl : SlotId) : MoneyKept r (s.expireSlot sl) := (h.expirePayments sl).expireClaim sl

theorem expireBooking (h : MoneyKept r s) (sl : SlotId) : MoneyKept r (s.expireBooking sl) := by
  unfold State.expireBooking
  split
  · exact (h.enterStage (Hire.Follows.of_fresh rfl rfl)).elsewhere rfl
  · exact h

/-! ### Pulses and ticks -/

/-- The same change made to every record, each following the one before. -/
theorem eachHire (h : MoneyKept r s) {f : Hire → Hire} (follows : ∀ x : Hire, (f x).Follows x) : MoneyKept r (s.eachHire f) := by
  obtain ⟨shift, -⟩ := kept_of_beyondStage (eachHire_beyondStage s f)
  refine h.moved (fun sl => ?_) (by rw [shift])
  rw [hire_eachHire]
  exact follows _

theorem wheelPulse (h : MoneyKept r s) : MoneyKept r s.wheelPulse := by
  have hires := h.eachHire (Hire.Follows.pulse s.tariffs.config.k s.hires.running s.tariffs.active)
  have odometer : ∀ {t : State}, MoneyKept r t → MoneyKept r t.odometerPulse := fun {t} g =>
    (g.withAccounts (addOdometer_guarded _ (metresDrawn t.tariffs.config.k t.odoRem))).elsewhere rfl
  unfold State.wheelPulse
  dsimp only
  split
  · refine odometer (count ?_ _ _)
    exact hires.elsewhere rfl
  · exact odometer hires

theorem fareWork (h : MoneyKept r s) : MoneyKept r s.fareWork :=
  (((((((h.eachHire (Hire.Follows.fareTick _ _)).expireBooking _).expireBooking _).expireBooking _).expireSlot _).expireSlot _).expireSlot _).fileOn

theorem tick (h : MoneyKept r s) (l : Lines) : MoneyKept r (s.tick l) := by
  have before := h.elsewhere (preTick_money l s)
  rw [tick_eq]
  split
  · exact before.fareWork.elsewhere (partClearOn_money _)
  · exact before.elsewhere (partClearOn_money _)

theorem recoveryEnd (h : MoneyKept r s) (failed : List Nat) : MoneyKept r (s.recoveryEnd failed) := by
  have recovered : MoneyKept r { s with journal := s.journal.recovered failed } := h.elsewhere rfl
  unfold State.recoveryEnd
  split
  · exact recovered.updateLow.elsewhere rfl
  · exact h

theorem recoveryStart (h : MoneyKept r s) : MoneyKept r s.recoveryStart := by
  unfold State.recoveryStart
  split
  · exact h.elsewhere (partClearOn_money s)
  · exact h

end MoneyKept
end Sys2Proof.Machine
end

section
/-! Requests that leave the hires and the shift as they are, each said once. -/

namespace Sys2Proof.Machine

/-- Checks leave what the work behind them leaves. -/
theorem checked_money {checks : List (Bool × Code)} {work : Owner} {s : State} (h : (work s).1.money = s.money) :
    (checked checks work s).1.money = s.money := chk_rel (Q := fun t => t.money = s.money) rfl h

theorem readCounterOwner_money (p : PortId) (index : Byte) (s : State) : (readCounterOwner p index s).1.money = s.money := by
  unfold readCounterOwner
  split
  · rfl
  · split <;> rfl

/-! ### The Tariff Store and the Time Base -/

theorem answerBlock_money (pl : List Byte) (c : Chain) (code : Code) (result : List Byte) (s : State) :
    (answerBlock pl c code result s).1.money = s.money := by
  unfold answerBlock
  split <;> rfl

theorem loadOwner_money (pl : List Byte) (s : State) : (loadOwner pl s).1.money = s.money := by
  refine checked_money ?_
  unfold loadBlock
  split
  · exact answerBlock_money _ _ _ _ _
  · split
    · exact answerBlock_money _ _ _ _ _
    · exact answerBlock_money _ _ _ _ _

theorem compareOwner_money (pl : List Byte) (s : State) : (compareOwner pl s).1.money = s.money := by
  refine checked_money ?_
  unfold compareBlock
  split
  · exact answerBlock_money _ _ _ _ _
  · split <;> exact answerBlock_money _ _ _ _ _

theorem readTariffOwner_money (set item place : Byte) (s : State) : (readTariffOwner set item place s).1.money = s.money := by
  unfold readTariffOwner
  split
  · rfl
  · split <;> rfl

theorem setConfigOwner_money (f : ConfigFields) (s : State) : (setConfigOwner f s).1.money = s.money := by
  refine checked_money ?_
  show (s.configured f).money = s.money
  rw [(configured_out s f).kept]
  rfl

theorem setClockOwner_money (f : ClockFields) (s : State) : (setClockOwner f s).1.money = s.money := by
  unfold setClockOwner
  split <;> rfl

theorem setClockPayload_money (pl : List Byte) (s : State) : (setClockPayload pl s).1.money = s.money := by
  unfold setClockPayload
  split
  · rfl
  · exact setClockOwner_money _ _

/-! ### The Journal, the Sign Driver and the Intercom Switch -/

theorem ackJournalOwner_money (seq : Word) (s : State) : (ackJournalOwner seq s).1.money = s.money := by
  refine checked_money ?_
  split
  · rfl
  · exact updateLow_money _

theorem readUnfiledOwner_money (s : State) : (readUnfiledOwner s).1.money = s.money := by
  unfold readUnfiledOwner
  split <;> rfl

theorem signOverrideOwner_money (value : Byte) (s : State) : (signOverrideOwner value s).1.money = s.money := by
  unfold signOverrideOwner
  split
  · rfl
  · split
    · rfl
    · split
      · exact rederive_money _
      · rfl

theorem signTestRunOwner_money (s : State) : (signTestRunOwner s).1.money = s.money := by
  unfold signTestRunOwner
  split <;> rfl

theorem signTestOwner_money (value : Byte) (s : State) : (signTestOwner value s).1.money = s.money := by
  unfold signTestOwner
  split
  · exact signTestRunOwner_money s
  · split <;> rfl

theorem setTalkModeOwner_money (mode : Byte) (s : State) : (setTalkModeOwner mode s).1.money = s.money := by
  unfold setTalkModeOwner
  split
  · rfl
  · split <;> rfl

theorem setVolumeOwner_money (path volume : Byte) (s : State) : (setVolumeOwner path volume s).1.money = s.money := by
  unfold setVolumeOwner
  split
  · rfl
  · exact checked_money rfl

theorem setMonitorOwner_money (select : Byte) (s : State) : (setMonitorOwner select s).1.money = s.money := by
  unfold setMonitorOwner
  split <;> rfl

/-! ### The Alarm Unit and the Port Interface -/

theorem alarmStandDownOwner_money (s : State) : (alarmStandDownOwner s).1.money = s.money := by
  unfold alarmStandDownOwner
  split <;> rfl

theorem setIndicatorsOwner_money (enable value : Byte) (s : State) : (setIndicatorsOwner enable value s).1.money = s.money := by
  show (if _ then _ else _ : State).money = s.money
  split <;> rfl

theorem admitNull_money (p : PortId) (tag : Byte) (s : State) : (admitNull p tag s).money = s.money := by
  unfold admitNull
  split
  · rfl
  · rfl
  · unfold State.takeNull
    dsimp only
    split <;> rfl

theorem readTransfer_money (s : State) (p : PortId) (n : Nat) : (s.readTransfer p n).money = s.money := by
  unfold State.readTransfer
  dsimp only
  split
  · rfl
  · split <;> rfl

/-! ### Completions -/

theorem configWritten_money (s : State) : s.configWritten.money = s.money := by
  unfold State.configWritten
  split <;> rfl

theorem configWriteFailed_money (s : State) : s.configWriteFailed.money = s.money := by
  unfold State.configWriteFailed
  split
  · split <;> rfl
  · rfl

theorem activationFailed_money (s : State) : s.activationFailed.money = s.money := by
  unfold State.activationFailed
  split <;> rfl

theorem warned_money (s : State) : s.warned.money = s.money := by
  unfold State.warned
  split <;> rfl

theorem freeze_money (s : State) : s.freeze.money = s.money := by
  unfold State.freeze
  split <;> rfl

theorem workingMemory_money (s : State) : s.workingMemory.money = s.money := rfl

end Sys2Proof.Machine
end

section
/-! The laws of the money through the supply, the requests and the transfers, and at every step (R72, R74, R81, R84, R105). -/

namespace Sys2Proof.Machine
namespace MoneyKept

variable {r s : State}

/-! ### The supply -/

theorem vacantBelow (h : MoneyKept r s) : MoneyKept r s.vacantBelow := by
  unfold State.vacantBelow
  dsimp only
  split
  · exact h
  · refine count ?_ _ _
    exact h.elsewhere rfl

theorem remaindersBelow (h : MoneyKept r s) : MoneyKept r s.remaindersBelow := by
  unfold State.remaindersBelow
  dsimp only
  exact vacantBelow (h.moved (fun sl => by cases sl <;> exact Hire.Follows.remainderBelow _ _) rfl)

theorem restoreHires (h : MoneyKept r s) : MoneyKept r s.restoreHires := by
  have restored : MoneyKept r { s with hires := s.hires.map Hire.restored } :=
    h.moved (fun sl => by cases sl <;> exact Hire.Follows.restored _) rfl
  unfold State.restoreHires
  refine settle (settle (settle ?_ _) _) _
  split
  · exact restored
  · exact restored.count _ _

theorem takeUp (h : MoneyKept r s) (u : StartUp) (configBad tariffBad : Bool) : MoneyKept r (s.takeUp u configBad tariffBad) := by
  obtain ⟨j, erased, -⟩ := eraseLost_out s u.erased
  obtain ⟨s0, s1, s2, e0, e1, e2, take⟩ := takeUp_parts s u configBad tariffBad (erased s rfl rfl)
  have h0 : MoneyKept r s0 := e0 ▸ h.elsewhere rfl
  have h1 : MoneyKept r s1 := by
    rw [e1]
    split
    · exact h0.moved (fun sl => by cases sl <;> exact Hire.Follows.withoutTariff _) rfl
    · exact h0
  have h2 : MoneyKept r s2 := by
    rw [e2]
    split
    · exact h1.remaindersBelow
    · exact h1
  rw [take]
  exact (h2.restoreHires.withAccounts (taken_guarded _)).fileOn

/-- With the retention memory every hire is lost, and the shift is the one of R96 (R191). -/
theorem loseRetained (s : State) (u : StartUp) : MoneyKept r (s.loseRetained u) := by
  unfold State.loseRetained
  dsimp only
  refine fileOn (handOver (updateLow ?_) _)
  exact ⟨fun _ => Nat.le_refl 0, fun _ => reset_claimLaw, fun _ => reset_balanceLaw, fun _ => reset_countersLaw⟩

theorem startUp (h : MoneyKept r s) (intact : Bool) (u : StartUp) : MoneyKept r (s.startUp intact u) := by
  have loaded : MoneyKept r { s with pins := u.lines, tariffs := s.tariffs.loaded u, shift := s.shift.storeLoaded u } :=
    (h.withAccounts (storeLoaded_guarded s.shift u)).elsewhere rfl
  unfold State.startUp
  dsimp only
  split
  · exact ((loaded.elsewhere (updateLowFrom_money _ _)).takeUp _ _ _).elsewhere (workingMemory_money _)
  · exact (loseRetained _ u).elsewhere (workingMemory_money _)

/-! ### Requests of Shift Accounting -/

/-- Checks keep what the work behind them keeps when they pass. -/
theorem checked {checks : List (Bool × Code)} {work : Owner} (h : MoneyKept r s) (hw : firstRefusal checks = none → MoneyKept r (work s).1) :
    MoneyKept r (checked checks work s).1 := by
  unfold Machine.checked
  split
  · exact h
  · rename_i pass
    exact hw pass

theorem withSlot {work : SlotId → Owner} (h : MoneyKept r s) (b : Byte) (hw : ∀ sl, MoneyKept r (work sl s).1) :
    MoneyKept r (withSlot b work s).1 := slot_rel h hw

/-- A shift opened has an offline total of 0 and fresh counters (R98). -/
theorem openShiftOwner (h : MoneyKept r s) (driver : Half) : MoneyKept r (openShiftOwner driver s).1 := by
  have opened : MoneyKept r { s with shift := s.shift.opening driver.toNat s.clock s.tariffs.config } :=
    h.withShift (fun _ => Nat.zero_le _) fun _ => List.length_replicate
  refine h.checked fun _ => rederive ?_
  exact opened.elsewhere rfl

theorem emptyBooked (h : MoneyKept r s) (sl : SlotId) : MoneyKept r (s.emptyBooked sl) := by
  unfold State.emptyBooked
  split
  · exact h.enterStage (Hire.Follows.of_fresh rfl rfl)
  · exact h

theorem closeShiftOwner (h : MoneyKept r s) : MoneyKept r (closeShiftOwner s).1 := by
  unfold Machine.closeShiftOwner
  split
  · have left := h.withAccounts (x := { s.shift with state := .closing, closeTime := some s.clock }) rfl
    exact (((left.emptyBooked _).emptyBooked _).emptyBooked _).rederive.beginSummary.fileOn
  · exact h

theorem setPoolingOwner (h : MoneyKept r s) (pooling : Byte) : MoneyKept r (setPoolingOwner pooling s).1 := by
  unfold Machine.setPoolingOwner
  split
  · exact h
  · rename_i on _
    exact h.checked fun _ => (h.withAccounts (x := { s.shift with pooling := on }) rfl).rederive

theorem onTotalsWrite (h : MoneyKept r s) {f : ShiftAccounting → TotalsWrite → ShiftAccounting} (same : ∀ x w, (f x w).guarded = x.guarded) :
    MoneyKept r (s.onTotalsWrite f) := by
  unfold State.onTotalsWrite
  split
  · exact h.withAccounts (same _ _)
  · exact h

/-! ### Requests of the Hire Controller -/

theorem bookOwner (h : MoneyKept r s) (slot : Byte) (ref : BitVec 64) (d : Half) : MoneyKept r (bookOwner slot ref d s).1 :=
  h.withSlot _ fun _ => h.checked fun _ => h.enterStage (Hire.Follows.of_fresh rfl rfl)

theorem cancelBookingOwner (h : MoneyKept r s) (slot : Byte) : MoneyKept r (cancelBookingOwner slot s).1 :=
  h.withSlot _ fun _ => h.checked fun _ => h.enterStage (Hire.Follows.of_fresh rfl rfl)

theorem startHireOwner (h : MoneyKept r s) (slot choice : Byte) : MoneyKept r (startHireOwner slot choice s).1 := by
  refine h.withSlot _ fun sl => h.checked fun _ => ?_
  split
  · exact h
  · refine h.checked fun _ => enterStage ?_ (Hire.Follows.of_fresh rfl rfl)
    exact h.elsewhere rfl

theorem suspendOwner (h : MoneyKept r s) (slot : Byte) : MoneyKept r (suspendOwner slot s).1 :=
  h.withSlot _ fun _ => h.checked fun pass => (h.enterStage (Hire.Follows.suspended (fr_cons.1 pass).1)).count _ _

theorem resumeOwner (h : MoneyKept r s) (slot : Byte) : MoneyKept r (resumeOwner slot s).1 := by
  refine h.withSlot _ fun sl => h.checked fun pass => h.enterStage ?_
  split
  · exact Hire.Follows.stoppedAt _ _
  · exact Hire.Follows.resumed (beq_iff_eq.1 (fr_cons.1 pass).1)

theorem stopHireOwner (h : MoneyKept r s) (slot : Byte) : MoneyKept r (stopHireOwner slot s).1 := by
  refine h.withSlot _ fun sl => ?_
  dsimp only
  split
  · exact h.enterStage (Hire.Follows.stoppedAt _ _)
  · exact h.enterStage (Hire.Follows.stoppedAt _ _)
  · exact h.putHire (Hire.Follows.of_sameEntries rfl id rfl (Nat.le_refl _))
  · exact h.checked fun _ => h
  · exact h
  · exact h
  · exact h

/-- An extra added raises what is due (R17). -/
theorem addExtraOwner (h : MoneyKept r s) (slot extra : Byte) : MoneyKept r (addExtraOwner slot extra s).1 := by
  refine h.withSlot _ fun sl => h.checked fun _ => ?_
  split
  · exact h
  · refine h.checked fun _ => settleAndFile (h.putHire ?_) sl
    refine Hire.Follows.of_sameEntries rfl id rfl ?_
    exact Nat.add_le_add_left (Nat.le_add_right _ _) _

/-- An extra is removed only while the hire has no entry, so nothing is committed (R18). -/
theorem removeExtraOwner (h : MoneyKept r s) (slot extra : Byte) : MoneyKept r (removeExtraOwner slot extra s).1 := by
  refine h.withSlot _ fun sl => h.checked fun pass => settleAndFile (putHire (s := { s with draws := _ }) ?_ ?_) sl
  · exact h.elsewhere rfl
  · obtain ⟨-, -, noEntry, -⟩ := by simpa only [fr_cons] using pass
    refine Hire.Follows.of_sameClaim rfl id fun _ => ?_
    show committedBy (s.hire sl).payments ≤ _
    rw [List.isEmpty_iff.1 noEntry]
    exact Nat.zero_le _

theorem closeUnpaidOwner (h : MoneyKept r s) (slot : Byte) : MoneyKept r (closeUnpaidOwner slot s).1 := by
  refine h.withSlot _ fun sl => h.checked fun pass => (h.enterFiling ?_ _).fileOn
  obtain ⟨-, free, -⟩ := by simpa only [fr_cons] using pass
  exact Option.isNone_iff_eq_none.1 (Bool.and_eq_true_iff.1 free).1

theorem readHireOwner (h : MoneyKept r s) (p : PortId) (slot : Byte) : MoneyKept r (readHireOwner p slot s).1 :=
  h.withSlot _ fun sl => h.renew p sl

/-! ### Requests of the Settlement Unit -/

/-- A claim is granted on a STOPPED hire to a port that holds no other (R74). -/
theorem granted (h : MoneyKept r s) {p : PortId} {sl : SlotId} (stopped : (s.hire sl).stage = .stopped) (free : s.holdsClaim p = false) :
    MoneyKept r (s.putHire sl (s.claimed p (s.hire sl))) := by
  refine ⟨h.ceiling, fun law => claimLaw_granted stopped free (h.claims law), fun law => ?_, h.counters⟩
  refine (balanceLaw_iff _).2 fun other => ?_
  have covered := (balanceLaw_iff _).1 (h.balances law)
  by_cases same : other = sl
  · subst same
    rw [putHire_hires, hires_get_put_same]
    exact covered other
  · rw [putHire_hires, hires_get_put_other _ _ same]
    exact covered other

theorem claimOwner (h : MoneyKept r s) (p : PortId) (slot : Byte) : MoneyKept r (claimOwner p slot s).1 := by
  refine h.withSlot _ fun sl => h.checked fun pass => ?_
  split
  · exact h.renew p sl
  · refine h.checked fun free => settleAndFile (h.granted ?_ ?_) sl
    · exact beq_iff_eq.1 (fr_cons.1 pass).1
    · exact Bool.not_eq_true' _ ▸ (fr_cons.1 free).1

theorem releaseOwner (h : MoneyKept r s) (p : PortId) (slot : Byte) : MoneyKept r (releaseOwner p slot s).1 :=
  h.withSlot _ fun sl => h.checked fun _ => (h.putHire (Hire.Follows.released _)).settleAndFile sl

/-- An entry within the balance is placed, and the port's own claim renewed (R80). -/
theorem beginPaymentOwner (h : MoneyKept r s) (p : PortId) (slot method : Byte) (amount tip : Word) :
    MoneyKept r (beginPaymentOwner p slot method amount tip s).1 := by
  refine h.withSlot _ fun sl => h.checked fun pass => settleAndFile (h.putHire ?_) sl
  obtain ⟨-, -, own, -, -, fits, -⟩ := by
    simpa only [claimantChecks, List.cons_append, List.nil_append, fr_cons] using pass
  have placed : ((s.hire sl).withPayment (s.pendingEntry p ((methodOf method).getD .card) amount tip)).Follows (s.hire sl) :=
    Hire.Follows.withPayment (of_decide_eq_true (Bool.and_eq_true_iff.1 fits).2)
  exact (Hire.Follows.renewed s (h := (s.hire sl).withPayment _) own).trans placed

theorem postCashOwner (h : MoneyKept r s) (slot : Byte) (amount tip : Word) : MoneyKept r (postCashOwner slot amount tip s).1 := by
  refine h.withSlot _ fun sl => h.checked fun pass => settleAndFile (h.putHire (Hire.Follows.withPayment ?_)) sl
  obtain ⟨-, -, -, fits, -⟩ := by simpa only [fr_cons] using pass
  exact of_decide_eq_true (Bool.and_eq_true_iff.1 fits).2

/-- The port's own claim renewed with one of its entries replaced by one that commits no more. -/
theorem putOwnEntry (h : MoneyKept r s) {t : State} {p : PortId} {sl : SlotId} {i : Nat} {e x : Payment}
    (own : (s.hire sl).claimedBy p = true) (entry : (s.hire sl).entry i = some e) (less : x.committed ≤ e.committed) :
    MoneyKept r ((s.putHire sl (t.claimed p ((s.hire sl).putEntry i x))).settleAndFile sl) :=
  (h.putHire ((Hire.Follows.renewed t (h := (s.hire sl).putEntry i x) own).trans (Hire.Follows.putEntry entry less))).settleAndFile sl

/-- A total within the ceiling (R84, R89). -/
theorem setOffline (h : MoneyKept r s) {n : Nat} (within : CeilingLaw s.shift → n ≤ s.shift.ceiling) : MoneyKept r (s.setOffline n) :=
  h.withShift within id

theorem reverseEntry (h : MoneyKept r s) {p : PortId} {sl : SlotId} {i : Nat} {e : Payment}
    (own : (s.hire sl).claimedBy p = true) (entry : (s.hire sl).entry i = some e) : MoneyKept r (reverseEntry p sl i e s).1 := by
  have less : ({ e with state := .reversed } : Payment).committed ≤ e.committed := Nat.zero_le _
  unfold Machine.reverseEntry
  dsimp only
  split
  · exact (h.setOffline fun law => (Nat.sub_le _ _).trans law).putOwnEntry own entry less
  · exact h.putOwnEntry own entry less

theorem reverseOwner (h : MoneyKept r s) (p : PortId) (slot entry : Byte) : MoneyKept r (reverseOwner p slot entry s).1 := by
  refine h.withSlot _ fun sl => h.checked fun pass => ?_
  split
  · exact h
  · rename_i e there
    obtain ⟨-, -, own, -⟩ := by simpa only [claimantChecks, fr_cons] using pass
    exact h.checked fun _ => h.reverseEntry own there

/-- An offline approval raises the total no further than the ceiling (R84). -/
theorem pendingResult (h : MoneyKept r s) {p : PortId} {sl : SlotId} {f : ResultFields} {e : Payment} (approved : Bool) (route : Route)
    (entry : (s.hire sl).entry f.entry.toNat = some e) (pending : e.state = .pending) :
    MoneyKept r (pendingResult p sl f approved route e s).1 := by
  unfold Machine.pendingResult
  split
  · exact h
  · rename_i claimant
    have own : (s.hire sl).claimedBy p = true := by simpa using claimant
    split
    · exact h
    · split
      · exact h.putOwnEntry own entry (committed_answered pending _ _ _)
      · split
        · exact h.putOwnEntry own entry (committed_answered pending _ _ _)
        · split
          · rename_i within
            exact (h.setOffline fun _ => within).putOwnEntry own entry (committed_answered pending _ _ _)
          · exact h

theorem lateResult (h : MoneyKept r s) {sl : SlotId} {f : ResultFields} {e : Payment} (approved : Bool)
    (entry : (s.hire sl).entry f.entry.toNat = some e) : MoneyKept r (s.lateResult sl f approved e) := by
  unfold State.lateResult
  dsimp only
  split
  · exact h
  · split
    · split
      · exact h
      · have marked : ({ e with late := true } : Payment).committed ≤ e.committed := Nat.le_refl _
        exact (h.putHire (Hire.Follows.putEntry entry marked)).lateApproval _ _ _ _ _ _
    · exact h.lateApproval _ _ _ _ _ _

theorem presentResult (h : MoneyKept r s) (p : PortId) (sl : SlotId) (f : ResultFields) (approved : Bool) (route : Route) :
    MoneyKept r (presentResult p sl f approved route s).1 := by
  unfold Machine.presentResult
  dsimp only
  split
  · exact h
  · split
    · exact h
    · rename_i e entry
      split
      · exact h
      · split
        · rename_i pending
          exact h.pendingResult approved route entry pending
        · unfold expiredResult
          split
          · exact h
          · exact (h.lateResult approved entry).renew _ _
        · exact h

theorem paymentResultOwner (h : MoneyKept r s) (p : PortId) (f : ResultFields) : MoneyKept r (paymentResultOwner p f s).1 := by
  unfold Machine.paymentResultOwner
  split
  · split
    · exact h
    · split
      · exact h.presentResult _ _ _ _ _
      · unfold goneResult
        split
        · exact h
        · split
          · exact h.lateApproval _ _ _ _ _ _
          · exact h
  · exact h

theorem activationDone (h : MoneyKept r s) : MoneyKept r s.activationDone := by
  unfold State.activationDone
  split
  · refine fileOn (notify (handOver ?_ _) _ _)
    exact h.elsewhere rfl
  · exact h

/-! ### From a port to the owners -/

/-- The work of a request's owner, by its kind. -/
theorem ownerOf (h : MoneyKept r s) (p : PortId) (pl : List Byte) (k : Kind) : MoneyKept r (ownerOf p pl k s).1 :=
  match k with
  | .openShift => h.openShiftOwner _
  | .closeShift => h.closeShiftOwner
  | .setPooling => h.setPoolingOwner _
  | .readCounter => h.elsewhere (readCounterOwner_money _ _ _)
  | .book => h.bookOwner _ _ _
  | .cancelBooking => h.cancelBookingOwner _
  | .startHire => h.startHireOwner _ _
  | .suspend => h.suspendOwner _
  | .resume => h.resumeOwner _
  | .stopHire => h.stopHireOwner _
  | .addExtra => h.addExtraOwner _ _
  | .removeExtra => h.removeExtraOwner _ _
  | .closeUnpaid => h.closeUnpaidOwner _
  | .readHire => h.readHireOwner _ _
  | .claim => h.claimOwner _ _
  | .release => h.releaseOwner _ _
  | .beginPayment => h.beginPaymentOwner _ _ _ _ _
  | .paymentResult => h.paymentResultOwner _ _
  | .reverse => h.reverseOwner _ _ _
  | .postCash => h.postCashOwner _ _ _
  | .load => h.elsewhere (loadOwner_money _ _)
  | .compare => h.elsewhere (compareOwner_money _ _)
  | .readTariff => h.elsewhere (readTariffOwner_money _ _ _ _)
  | .setConfig => h.elsewhere (setConfigOwner_money _ _)
  | .setClock => h.elsewhere (setClockPayload_money _ _)
  | .ackJournal => h.elsewhere (ackJournalOwner_money _ _)
  | .readUnfiled => h.elsewhere (readUnfiledOwner_money _)
  | .signOverride => h.elsewhere (signOverrideOwner_money _ _)
  | .signTest => h.elsewhere (signTestOwner_money _ _)
  | .setTalkMode => h.elsewhere (setTalkModeOwner_money _ _)
  | .setVolume => h.elsewhere (setVolumeOwner_money _ _ _)
  | .setMonitor => h.elsewhere (setMonitorOwner_money _ _)
  | .alarmStandDown => h.elsewhere (alarmStandDownOwner_money _)
  | .setIndicators => h.elsewhere (setIndicatorsOwner_money _ _ _)
  | .activate | .readJournal | .ackUnfiled | .postPrompt | .clearPart => h.elsewhere (checked_money rfl)
  | .readShift | .latchCounters | .signClear | .readIntercom | .intercomClear | .readAlarmLog | .readIndicators | .ackNotices
  | .setNoticeMask | .setStageMask | .null => h.elsewhere rfl

/-- Admission answers on the port beside the owner's work (R175). -/
theorem admitRequest {owner : Owner} (h : MoneyKept r s) (p : PortId) (k tag : Byte) (offered : Bool) (work : MoneyKept r (owner s).1) :
    MoneyKept r (admitRequest p k tag offered owner s) :=
  admit_rel (R := fun _ t => MoneyKept r t) h (fun _ x g => g.putPort p x) work

theorem takeFrame (h : MoneyKept r s) (p : PortId) (bs : List Byte) : MoneyKept r (takeFrame p bs s) := by
  unfold Machine.takeFrame
  dsimp only
  split
  · unfold takeRequest
    split
    · exact h.elsewhere (admitNull_money _ _ _)
    · refine h.admitRequest _ _ _ _ ?_
      unfold checkedOwner
      split
      · exact h.ownerOf _ _ _
      · exact h
    · exact h.admitRequest _ _ _ _ h
  · exact h.putPort _ _

theorem receiveByte (h : MoneyKept r s) (p : PortId) (b : Byte) : MoneyKept r (receiveByte p s b) := by
  unfold Machine.receiveByte
  split
  · exact h
  · split
    · exact h.putPort _ _
    · exact (h.putPort _ _).putPort _ _
    · exact takeFrame (h.putPort _ _) _ _

theorem receiveBytes (p : PortId) (bs : List Byte) : ∀ {s : State}, MoneyKept r s → MoneyKept r (receiveBytes p bs s) := by
  induction bs with
  | nil => exact id
  | cons b bs ih => exact fun h => ih (h.receiveByte p b)

end MoneyKept

/-! ### Every command and every step -/

/-- Whatever state an outcome leads to keeps the laws. -/
def MoneyKeptTo (s : State) (o : Host.Outcome State Fault Refusal) : Prop := ∀ t, o = .next t → MoneyKept s t

theorem moneyKeptTo_next {s t : State} (h : MoneyKept s t) : MoneyKeptTo s (.next t) := by
  intro u same
  injection same with same
  exact same ▸ h

/-- A request keeps what its owner's work keeps. -/
theorem moneyKeptTo_request {s : State} {owner : Owner} (p : PortId) (k : Kind) (tag : Byte) (work : MoneyKept s (owner s).1) :
    MoneyKeptTo s (request p k tag owner s) := moneyKeptTo_next ((MoneyKept.refl s).admitRequest _ _ _ _ work)

/-- A request that leaves hires and shift. -/
theorem moneyKeptTo_still {s : State} {owner : Owner} (p : PortId) (k : Kind) (tag : Byte) (same : (owner s).1.money = s.money) :
    MoneyKeptTo s (request p k tag owner s) := moneyKeptTo_request p k tag ((MoneyKept.refl s).elsewhere same)

/-- A block whose payload is too long is malformed, and reaches no owner (R175). -/
theorem moneyKeptTo_block {s : State} {owner : Owner} (p : PortId) (k : Kind) (tag : Byte) (pl : List Byte)
    (same : (owner s).1.money = s.money) : MoneyKeptTo s (requestBlock p k tag pl owner s) := by
  unfold requestBlock
  split
  · exact moneyKeptTo_still _ _ _ same
  · refine moneyKeptTo_next ?_
    split
    · exact MoneyKept.refl s
    · exact (MoneyKept.refl s).putPort _ _

/-- An event that a running part takes. -/
theorem moneyKeptTo_event {s : State} {f : State → State} (work : MoneyKept s (f s)) : MoneyKeptTo s (.next (whenRunning f s)) := by
  refine moneyKeptTo_next ?_
  unfold whenRunning
  split
  · exact work
  · exact MoneyKept.refl s

/-- A transfer on a port of a part that is not frozen. -/
theorem moneyKeptTo_transfer {s : State} {f : State → State} (work : MoneyKept s (f s)) : MoneyKeptTo s (.next (unlessFrozen f s)) := by
  refine moneyKeptTo_next ?_
  unfold unlessFrozen
  split
  · exact MoneyKept.refl s
  · exact work

/-- An event that falls or does not (log entry 4). -/
theorem moneyKeptTo_ite {s : State} {c : Prop} [Decidable c] {f : State → State} (work : MoneyKept s (f s)) :
    MoneyKeptTo s (.next (if c then whenRunning f s else s)) := by
  split
  · exact moneyKeptTo_event work
  · exact moneyKeptTo_next (MoneyKept.refl s)

theorem moneyKeptTo_tickWith (falls : State → Bool) (l : Lines) (s : State) : MoneyKeptTo s (.next (tickWith falls l s)) :=
  moneyKeptTo_ite ((MoneyKept.refl s).tick l)

/-- Every command keeps the laws. -/
theorem exec_moneyKept (i : Instr) (s : State) : MoneyKeptTo s (exec i s) :=
  have h := MoneyKept.refl s
  match i with
  | .openShift _ _ _ => moneyKeptTo_request _ _ _ (h.openShiftOwner _)
  | .closeShift _ _ => moneyKeptTo_request _ _ _ h.closeShiftOwner
  | .setPooling _ _ _ => moneyKeptTo_request _ _ _ (h.setPoolingOwner _)
  | .readCounter _ _ _ => moneyKeptTo_still _ _ _ (readCounterOwner_money _ _ _)
  | .book _ _ _ _ _ => moneyKeptTo_request _ _ _ (h.bookOwner _ _ _)
  | .cancelBooking _ _ _ => moneyKeptTo_request _ _ _ (h.cancelBookingOwner _)
  | .startHire _ _ _ _ => moneyKeptTo_request _ _ _ (h.startHireOwner _ _)
  | .suspend _ _ _ => moneyKeptTo_request _ _ _ (h.suspendOwner _)
  | .resume _ _ _ => moneyKeptTo_request _ _ _ (h.resumeOwner _)
  | .stopHire _ _ _ => moneyKeptTo_request _ _ _ (h.stopHireOwner _)
  | .addExtra _ _ _ _ => moneyKeptTo_request _ _ _ (h.addExtraOwner _ _)
  | .removeExtra _ _ _ _ => moneyKeptTo_request _ _ _ (h.removeExtraOwner _ _)
  | .closeUnpaid _ _ _ => moneyKeptTo_request _ _ _ (h.closeUnpaidOwner _)
  | .readHire _ _ _ => moneyKeptTo_request _ _ _ (h.readHireOwner _ _)
  | .claim _ _ _ => moneyKeptTo_request _ _ _ (h.claimOwner _ _)
  | .release _ _ _ => moneyKeptTo_request _ _ _ (h.releaseOwner _ _)
  | .beginPayment _ _ _ _ _ _ => moneyKeptTo_request _ _ _ (h.beginPaymentOwner _ _ _ _ _)
  | .paymentResult _ _ _ => moneyKeptTo_request _ _ _ (h.paymentResultOwner _ _)
  | .reverse _ _ _ _ => moneyKeptTo_request _ _ _ (h.reverseOwner _ _ _)
  | .postCash _ _ _ _ _ => moneyKeptTo_request _ _ _ (h.postCashOwner _ _ _)
  | .load _ _ _ => moneyKeptTo_block _ _ _ _ (loadOwner_money _ _)
  | .compare _ _ _ => moneyKeptTo_block _ _ _ _ (compareOwner_money _ _)
  | .readTariff _ _ _ _ _ => moneyKeptTo_still _ _ _ (readTariffOwner_money _ _ _ _)
  | .setConfig _ _ x =>
    have sampled : MoneyKept s (s.sampleSeal x.sealed) := h.elsewhere rfl
    moneyKeptTo_transfer (sampled.admitRequest _ _ _ _ (sampled.elsewhere (setConfigOwner_money _ _)))
  | .setClock _ _ _ => moneyKeptTo_still _ _ _ (setClockOwner_money _ _)
  | .ackJournal _ _ _ => moneyKeptTo_still _ _ _ (ackJournalOwner_money _ _)
  | .readUnfiled _ _ => moneyKeptTo_still _ _ _ (readUnfiledOwner_money _)
  | .signOverride _ _ _ => moneyKeptTo_still _ _ _ (signOverrideOwner_money _ _)
  | .signTestRun _ _ => moneyKeptTo_still _ _ _ (signTestRunOwner_money _)
  | .setTalkMode _ _ _ => moneyKeptTo_still _ _ _ (setTalkModeOwner_money _ _)
  | .setVolume _ _ _ _ => moneyKeptTo_still _ _ _ (setVolumeOwner_money _ _ _)
  | .setMonitor _ _ _ => moneyKeptTo_still _ _ _ (setMonitorOwner_money _ _)
  | .alarmStandDown _ _ => moneyKeptTo_still _ _ _ (alarmStandDownOwner_money _)
  | .setIndicators _ _ _ _ => moneyKeptTo_still _ _ _ (setIndicatorsOwner_money _ _ _)
  | .activate _ _ | .readJournal _ _ _ | .ackUnfiled _ _ _ | .postPrompt _ _ _ | .clearPart _ _ =>
    moneyKeptTo_still _ _ _ (checked_money rfl)
  | .readShift _ _ | .latchCounters _ _ | .setClockRead _ _ | .signOverrideReport _ _ | .signTestReport _ _ | .signClear _ _
  | .readIntercom _ _ | .intercomClear _ _ | .readAlarmLog _ _ | .readIndicators _ _ | .ackNotices _ _ _ | .setNoticeMask _ _ _
  | .setStageMask _ _ _ => moneyKeptTo_still _ _ _ rfl
  | .null _ _ => moneyKeptTo_next (h.elsewhere (admitNull_money _ _ _))
  | .writeStart p x =>
    have started : MoneyKept s ((s.sampleSeal x.sealed).setReceive p (some [])) := h.elsewhere rfl
    moneyKeptTo_transfer (started.receiveBytes _ _)
  | .writeContinue p x =>
    have sampled : MoneyKept s (s.sampleSeal x.sealed) := h.elsewhere rfl
    moneyKeptTo_transfer (sampled.receiveBytes _ _)
  | .readFrame _ _ => moneyKeptTo_transfer (h.elsewhere (readTransfer_money _ _ _))
  | .repeatFrame _ _ => moneyKeptTo_transfer (h.elsewhere rfl)
  | .wheelPulse => moneyKeptTo_event h.wheelPulse
  | .totalMetres100m => moneyKeptTo_ite h.wheelPulse
  | .tick l => moneyKeptTo_event (h.tick l)
  | .fareTick _ | .ambientChange _ | .flashPhase _ | .signTestStep _ | .bookingExpired _ _ | .paymentExpired _ _ _ | .claimExpired _ _
  | .partClearComplete _ | .alarmPress _ => moneyKeptTo_tickWith _ _ _
  | .configWriteComplete => moneyKeptTo_event (h.elsewhere (configWritten_money _))
  | .configWriteFail => moneyKeptTo_event (h.elsewhere (configWriteFailed_money _))
  | .activationDone => moneyKeptTo_event h.activationDone
  | .activationFailed => moneyKeptTo_event (h.elsewhere (activationFailed_money _))
  | .totalizerWriteComplete => moneyKeptTo_event (h.onTotalsWrite writeDone_guarded)
  | .totalizerWriteFail => moneyKeptTo_event (h.onTotalsWrite writeFailed_guarded)
  | .journalVerifyPass => moneyKeptTo_event (by
      split
      · exact h.verifyPass.elsewhere (partClearOn_money _)
      · exact h)
  | .journalVerifyFail => moneyKeptTo_event (by
      split
      · exact h.verifyFail.elsewhere (partClearOn_money _)
      · exact h)
  | .journalRecoveryStart => moneyKeptTo_event h.recoveryStart
  | .journalRecoveryEnd _ => moneyKeptTo_event (h.recoveryEnd _)
  | .frontCodecFrame _ | .rearCodecFrame _ => moneyKeptTo_event (h.elsewhere rfl)
  | .promptEnd _ | .chimeEnd _ => moneyKeptTo_ite (h.elsewhere rfl)
  | .rtcSecond => moneyKeptTo_next (h.elsewhere rfl)
  | .powerFailWarning => moneyKeptTo_next (h.elsewhere (warned_money _))
  | .freeze => moneyKeptTo_next (h.elsewhere (freeze_money _))
  | .freezeExit u => moneyKeptTo_next (by
      split
      · exact h.startUp _ _
      · exact h)
  | .powerOn u => moneyKeptTo_next (h.startUp _ _)

/-- Every step keeps the laws. -/
theorem step_moneyKept {s t : State} (next : step s = .next t) : MoneyKept s t := by
  unfold step at next
  split at next
  · injection next with same
    exact same ▸ MoneyKept.refl s
  · rename_i c rest queued
    have kept := exec_moneyKept c { s with pending := rest } t next
    exact ⟨kept.ceiling, kept.claims, kept.balances, kept.counters⟩

/-- Settles O59: each law is kept by every step, as every command keeps all four. -/
theorem everyStepKeepsTheMoneyLaws : Obligations.EveryStepKeepsTheMoneyLaws :=
  ⟨fun _ _ law next => (step_moneyKept next).ceiling law, fun _ _ law next => (step_moneyKept next).claims law,
    fun _ _ law next => (step_moneyKept next).balances law, fun _ _ law next => (step_moneyKept next).counters law⟩

end Sys2Proof.Machine
end

section
/-! The requests of the Settlement Unit on claims and entries: what each owner does once its checks are read as propositions (R74 to R80,
R89, R90), and the statements on them. -/

namespace Sys2Proof.Machine

/-! ### Checks -/

/-- Checks that pass before others leave the others to decide. -/
theorem firstRefusal_append {before rest : List (Bool × Code)} (pass : firstRefusal before = none) :
    firstRefusal (before ++ rest) = firstRefusal rest := by
  induction before with
  | nil => rfl
  | cons check before ih =>
    obtain ⟨holds, passes⟩ := fr_cons.1 pass
    rw [List.cons_append, firstRefusal, holds]
    exact ih passes

/-- Of checks that share one code the code alone says that one of them fails. -/
theorem firstRefusal_shared {checks : List (Bool × Code)} {c : Code} (share : ∀ x ∈ checks, x.2 = c) (fails : ∃ x ∈ checks, x.1 = false) :
    firstRefusal checks = some c := by
  induction checks with
  | nil => simp at fails
  | cons check checks ih =>
    obtain ⟨holds, code⟩ := check
    obtain rfl : code = c := share _ List.mem_cons_self
    cases holds with
    | false => rfl
    | true => exact ih (fun x there => share x (List.mem_cons_of_mem _ there)) (by simpa using fails)

/-- A request of the Payment and Fleet ports is offered on each of them (R180). -/
theorem offered_claimants {k : Kind} {p : PortId} (offers : k.offers = (false, true, true)) (port : p ≠ .console) : k.offered p = true := by
  cases p with
  | console => exact absurd rfl port
  | payment | fleet => simp [Kind.offered, offers]

/-- A claimed hire is not filed at the end of a request (R19). -/
theorem settleAndFile_claimed {s : State} {sl : SlotId} {c : Claim} (claim : (s.hire sl).claim = some c) : s.settleAndFile sl = s := by
  unfold State.settleAndFile
  rw [settled_claimed claim]
  rfl

/-- A hire whose claim was granted or renewed stays as it is put. -/
theorem settleAndFile_putClaimed (s t : State) (sl : SlotId) (p : PortId) (h : Hire) :
    (s.putHire sl (t.claimed p h)).settleAndFile sl = s.putHire sl (t.claimed p h) :=
  settleAndFile_claimed (c := ⟨p, t.claimExpiry⟩) (by rw [hire_putHire_same]; rfl)

theorem claimedByOther_unclaimed {h : Hire} (claim : h.claim = none) (p : PortId) : h.claimedByOther p = false := by
  simp [Hire.claimedByOther, claim]

theorem claimedBy_unclaimed {h : Hire} (claim : h.claim = none) (p : PortId) : h.claimedBy p = false := by
  simp [Hire.claimedBy, claim]

theorem claimedByOther_of {h : Hire} {c : Claim} {p : PortId} (claim : h.claim = some c) (other : c.port ≠ p) :
    h.claimedByOther p = true := by
  simp [Hire.claimedByOther, claim, other]

/-- The checks pass for the claimant of a STOPPED hire (R77, R80, R89). -/
theorem claimantChecks_pass {p : PortId} {h : Hire} (stopped : h.stage = .stopped) (own : h.claimedBy p = true) :
    firstRefusal (claimantChecks p h) = none := by
  simp [claimantChecks, firstRefusal, stopped, own, claimedBy_other own]

/-! ### CLAIM -/

section
variable {p : PortId} {slot : Byte} {sl : SlotId} {s : State}

theorem claimOwner_granted (hsl : slotOf slot = some sl) (stopped : (s.hire sl).stage = .stopped) (unclaimed : (s.hire sl).claim = none)
    (free : s.holdsClaim p = false) :
    claimOwner p slot s = done (s.putHire sl (s.claimed p (s.hire sl))) (be2 s.tariffs.config.claimTimeout) := by
  have claimable : firstRefusal [((s.hire sl).stage == .stopped, .badStage), (!(s.hire sl).claimedByOther p, .claimed)] = none := by
    simp [firstRefusal, stopped, claimedByOther_unclaimed unclaimed]
  unfold claimOwner
  rw [withSlot_some hsl]
  refine (checked_ok claimable).trans ?_
  rw [if_neg (by simp [claimedBy_unclaimed unclaimed])]
  refine (checked_ok (by simp [firstRefusal, free])).trans ?_
  rw [settleAndFile_putClaimed]

theorem claimOwner_notPermitted (hsl : slotOf slot = some sl) (stopped : (s.hire sl).stage = .stopped)
    (unclaimed : (s.hire sl).claim = none) (holds : s.holdsClaim p = true) : claimOwner p slot s = (s, .refuse .notPermitted) := by
  have claimable : firstRefusal [((s.hire sl).stage == .stopped, .badStage), (!(s.hire sl).claimedByOther p, .claimed)] = none := by
    simp [firstRefusal, stopped, claimedByOther_unclaimed unclaimed]
  unfold claimOwner
  rw [withSlot_some hsl]
  refine (checked_ok claimable).trans ?_
  rw [if_neg (by simp [claimedBy_unclaimed unclaimed])]
  exact checked_no (by simp [firstRefusal, holds])

theorem claimOwner_renewed (hsl : slotOf slot = some sl) (stopped : (s.hire sl).stage = .stopped)
    (own : (s.hire sl).claimedBy p = true) : claimOwner p slot s = done (s.renew p sl) [] := by
  unfold claimOwner
  rw [withSlot_some hsl]
  refine (checked_ok (by simp [firstRefusal, stopped, claimedBy_other own])).trans ?_
  rw [if_pos own]

theorem claimOwner_claimed {c : Claim} (hsl : slotOf slot = some sl) (stopped : (s.hire sl).stage = .stopped)
    (claim : (s.hire sl).claim = some c) (other : c.port ≠ p) : claimOwner p slot s = (s, .refuse .claimed) := by
  unfold claimOwner
  rw [withSlot_some hsl]
  exact checked_no (by simp [firstRefusal, stopped, claimedByOther_of claim other])

theorem claimOwner_badStage (hsl : slotOf slot = some sl) (notStopped : (s.hire sl).stage ≠ .stopped) :
    claimOwner p slot s = (s, .refuse .badStage) := by
  unfold claimOwner
  rw [withSlot_some hsl]
  exact checked_no (by simp [firstRefusal, notStopped])

/-! ### RELEASE -/

/-- Every PENDING entry EXPIRED and the claim gone, as the rule spells it (R77). -/
theorem released_eq (h : Hire) : h.released = { h with
    payments := h.payments.map (fun e => if e.state = .pending then { e with state := .expired } else e)
    claim := none } := by
  have lapse : ∀ e : Payment, e.lapse = if e.state = .pending then { e with state := .expired } else e := fun e =>
    if_congr (isPending_true e) rfl rfl
  unfold Hire.released
  rw [List.map_congr_left fun e _ => lapse e]

theorem releaseOwner_done (hsl : slotOf slot = some sl) (stopped : (s.hire sl).stage = .stopped) (own : (s.hire sl).claimedBy p = true) :
    releaseOwner p slot s = done ((s.putHire sl (s.hire sl).released).settleAndFile sl) [] := by
  unfold releaseOwner
  rw [withSlot_some hsl]
  exact checked_ok (claimantChecks_pass stopped own)

theorem releaseOwner_notClaimant (hsl : slotOf slot = some sl) (stopped : (s.hire sl).stage = .stopped)
    (unclaimed : (s.hire sl).claim = none) : releaseOwner p slot s = (s, .refuse .notClaimant) := by
  unfold releaseOwner
  rw [withSlot_some hsl]
  exact checked_no (by
    simp [claimantChecks, firstRefusal, stopped, claimedBy_unclaimed unclaimed, claimedByOther_unclaimed unclaimed])

theorem releaseOwner_claimed {c : Claim} (hsl : slotOf slot = some sl) (stopped : (s.hire sl).stage = .stopped)
    (claim : (s.hire sl).claim = some c) (other : c.port ≠ p) : releaseOwner p slot s = (s, .refuse .claimed) := by
  unfold releaseOwner
  rw [withSlot_some hsl]
  exact checked_no (by simp [claimantChecks, firstRefusal, stopped, claimedByOther_of claim other])

theorem releaseOwner_badStage (hsl : slotOf slot = some sl) (notStopped : (s.hire sl).stage ≠ .stopped) :
    releaseOwner p slot s = (s, .refuse .badStage) := by
  unfold releaseOwner
  rw [withSlot_some hsl]
  exact checked_no (by simp [claimantChecks, firstRefusal, notStopped])

end

/-- Settles O21: CLAIM and RELEASE by their owners' work in each case of the stage and the claim. -/
theorem claimsAreGrantedAndReleased : Obligations.ClaimsAreGrantedAndReleased := by
  refine ⟨fun p tag slot sl s ready port hsl => ?_, fun p tag slot sl s ready port hsl => ?_⟩
  · have offered : Kind.claim.offered p = true := offered_claimants rfl port
    refine ⟨fun stopped => ⟨fun unclaimed free => ?_, fun unclaimed holds => ?_, fun n claim => ?_, fun c claim other => ?_⟩,
      fun notStopped => ?_⟩
    · exact request_done ready offered (claimOwner_granted hsl stopped unclaimed free)
    · exact request_refused ready offered (claimOwner_notPermitted hsl stopped unclaimed holds)
    · have own : (s.hire sl).claimedBy p = true := (claimedBy_iff _ _).2 ⟨_, claim, rfl⟩
      have work := claimOwner_renewed hsl stopped own
      rw [renew_claimant own] at work
      exact request_done ready offered work
    · exact request_refused ready offered (claimOwner_claimed hsl stopped claim other)
    · exact request_refused ready offered (claimOwner_badStage hsl notStopped)
  · have offered : Kind.release.offered p = true := offered_claimants rfl port
    refine ⟨fun stopped own => ?_, fun stopped unclaimed => ?_, fun c stopped claim other => ?_, fun notStopped => ?_⟩
    · have work := releaseOwner_done hsl stopped own
      rw [released_eq] at work
      exact request_done ready offered work
    · exact request_refused ready offered (releaseOwner_notClaimant hsl stopped unclaimed)
    · exact request_refused ready offered (releaseOwner_claimed hsl stopped claim other)
    · exact request_refused ready offered (releaseOwner_badStage hsl notStopped)

/-! ### BEGIN_PAYMENT -/

theorem amountFits_iff (h : Hire) (amount : Word) : amountFits h amount = true ↔ 1 ≤ amount.toNat ∧ amount.toNat ≤ h.balance := by
  simp [amountFits]

section
variable {p : PortId} {slot method : Byte} {amount tip : Word} {sl : SlotId} {s : State}

theorem beginPaymentOwner_done {m : PayMethod} (hsl : slotOf slot = some sl) (stopped : (s.hire sl).stage = .stopped)
    (own : (s.hire sl).claimedBy p = true) (room : (s.hire sl).payments.length < 4) (known : methodOf method = some m) (notCash : m ≠ .cash)
    (some1 : 1 ≤ amount.toNat) (fits : amount.toNat ≤ (s.hire sl).balance) (tipFits : tip.toNat ≤ 99999) :
    beginPaymentOwner p slot method amount tip s
      = done (s.putHire sl (s.claimed p ((s.hire sl).withPayment (s.pendingEntry p m amount tip)))) (be1 ((s.hire sl).payments.length + 1)) := by
  have account : m = .card ∨ m = .account := by
    cases m with
    | card => exact .inl rfl
    | cash => exact absurd rfl notCash
    | account => exact .inr rfl
  have amounts := (amountFits_iff (s.hire sl) amount).2 ⟨some1, fits⟩
  unfold beginPaymentOwner
  rw [withSlot_some hsl]
  refine (checked_ok ?_).trans ?_
  · rw [firstRefusal_append (claimantChecks_pass stopped own)]
    simp [firstRefusal, room, known, account, amounts, maxTip, tipFits]
  · dsimp only
    rw [settleAndFile_putClaimed, known]
    rfl

theorem beginPaymentOwner_full (hsl : slotOf slot = some sl) (stopped : (s.hire sl).stage = .stopped)
    (own : (s.hire sl).claimedBy p = true) (full : 4 ≤ (s.hire sl).payments.length) :
    beginPaymentOwner p slot method amount tip s = (s, .refuse .full) := by
  unfold beginPaymentOwner
  rw [withSlot_some hsl]
  refine checked_no ?_
  rw [firstRefusal_append (claimantChecks_pass stopped own), firstRefusal, decide_eq_false (Nat.not_lt.2 full)]
  rfl

theorem beginPaymentOwner_range (hsl : slotOf slot = some sl) (stopped : (s.hire sl).stage = .stopped)
    (own : (s.hire sl).claimedBy p = true) (room : (s.hire sl).payments.length < 4)
    (outside : methodOf method = none ∨ methodOf method = some .cash ∨ amount.toNat = 0 ∨ (s.hire sl).balance < amount.toNat
      ∨ 99999 < tip.toNat) : beginPaymentOwner p slot method amount tip s = (s, .refuse .range) := by
  unfold beginPaymentOwner
  rw [withSlot_some hsl]
  refine checked_no ?_
  rw [firstRefusal_append (claimantChecks_pass stopped own), firstRefusal, decide_eq_true room]
  refine firstRefusal_shared (by simp) ?_
  rcases outside with unknown | cash | zero | above | tipAbove
  · exact ⟨_, .head _, by simp [unknown]⟩
  · exact ⟨_, .head _, by simp [cash]⟩
  · exact ⟨_, .tail _ (.head _), by simp [amountFits, zero]⟩
  · exact ⟨_, .tail _ (.head _), by simp [amountFits, above]⟩
  · exact ⟨_, .tail _ (.tail _ (.head _)), decide_eq_false (Nat.not_le.2 tipAbove)⟩

/-! ### POST_CASH -/

theorem postCashOwner_done (hsl : slotOf slot = some sl) (stopped : (s.hire sl).stage = .stopped) (unclaimed : (s.hire sl).claim = none)
    (room : (s.hire sl).payments.length < 4) (some1 : 1 ≤ amount.toNat) (fits : amount.toNat ≤ (s.hire sl).balance)
    (tipFits : tip.toNat ≤ 99999) : postCashOwner slot amount tip s
      = done ((s.putHire sl ((s.hire sl).withPayment
          ⟨.cash, amount.toNat, tip.toNat, some .online, none, .approved, .console, none, false⟩)).settleAndFile sl)
        (be1 ((s.hire sl).payments.length + 1)) := by
  have amounts := (amountFits_iff (s.hire sl) amount).2 ⟨some1, fits⟩
  unfold postCashOwner
  rw [withSlot_some hsl]
  exact checked_ok (by simp [firstRefusal, stopped, unclaimed, room, amounts, maxTip, tipFits])

theorem postCashOwner_full (hsl : slotOf slot = some sl) (stopped : (s.hire sl).stage = .stopped) (unclaimed : (s.hire sl).claim = none)
    (full : 4 ≤ (s.hire sl).payments.length) : postCashOwner slot amount tip s = (s, .refuse .full) := by
  unfold postCashOwner
  rw [withSlot_some hsl]
  exact checked_no (by simp [firstRefusal, stopped, unclaimed, Nat.not_lt.2 full])

theorem postCashOwner_claimed (hsl : slotOf slot = some sl) (stopped : (s.hire sl).stage = .stopped)
    (claimed : (s.hire sl).claim.isSome) : postCashOwner slot amount tip s = (s, .refuse .claimed) := by
  unfold postCashOwner
  rw [withSlot_some hsl]
  refine checked_no ?_
  rw [firstRefusal, stopped, firstRefusal, ← Option.not_isSome, claimed]
  rfl

end

/-! ### REVERSE -/

theorem entry_eq {h : Hire} {i : Nat} (one : 1 ≤ i) : h.entry i = h.payments[i - 1]? := if_neg (by omega)

section
variable {p : PortId} {slot entry : Byte} {sl : SlotId} {s : State} {e : Payment}

/-- Past the claimant's checks a REVERSE is one of the entry it names (R89). -/
theorem reverseOwner_entry (hsl : slotOf slot = some sl) (stopped : (s.hire sl).stage = .stopped) (own : (s.hire sl).claimedBy p = true)
    (there : (s.hire sl).entry entry.toNat = some e) : reverseOwner p slot entry s
      = checked [(e.isApproved, .notPermitted), (e.method != .cash, .notPermitted)] (reverseEntry p sl entry.toNat e) s := by
  unfold reverseOwner
  rw [withSlot_some hsl]
  refine (checked_ok (claimantChecks_pass stopped own)).trans ?_
  rw [there]

theorem reverseOwner_noSuch (hsl : slotOf slot = some sl) (stopped : (s.hire sl).stage = .stopped) (own : (s.hire sl).claimedBy p = true)
    (missing : (s.hire sl).entry entry.toNat = none) : reverseOwner p slot entry s = (s, .refuse .noSuch) := by
  unfold reverseOwner
  rw [withSlot_some hsl]
  refine (checked_ok (claimantChecks_pass stopped own)).trans ?_
  rw [missing]

/-- An entry reversed: an OFFLINE amount leaves the offline total, and the claim is renewed (R84, R89). -/
theorem reverseEntry_eq (p : PortId) (sl : SlotId) (i : Nat) (e : Payment) (s : State) : reverseEntry p sl i e s
      = done (({ s with shift := { s.shift with
          offlineTotal := if e.route = some Route.offline then s.shift.offlineTotal - e.amount else s.shift.offlineTotal } } : State).putHire sl
        (s.claimed p ((s.hire sl).putEntry i { e with state := .reversed }))) [] := by
  unfold reverseEntry
  dsimp only
  rw [settleAndFile_putClaimed]
  split <;> rfl

end

/-- Settles O22: BEGIN_PAYMENT, POST_CASH and REVERSE by their owners' work, their refusals in the order of the checks. -/
theorem paymentsAreBegunPostedAndReversed : Obligations.PaymentsAreBegunPostedAndReversed := by
  refine ⟨fun p tag slot method amount tip sl s ready port hsl stopped own => ?_, fun tag slot amount tip sl s ready hsl stopped => ?_,
    fun p tag slot entry sl s ready port hsl stopped own => ?_⟩
  · have offered : Kind.beginPayment.offered p = true := offered_claimants rfl port
    refine ⟨fun m room known notCash some1 fits tipFits => ?_, fun full => ?_, fun room outside => ?_⟩
    · exact request_done ready offered (beginPaymentOwner_done hsl stopped own room known notCash some1 fits tipFits)
    · exact request_refused ready offered (beginPaymentOwner_full hsl stopped own full)
    · exact request_refused ready offered (beginPaymentOwner_range hsl stopped own room outside)
  · refine ⟨fun unclaimed room some1 fits tipFits => ?_, fun unclaimed full => ?_, fun claimed => ?_⟩
    · exact request_done ready rfl (postCashOwner_done hsl stopped unclaimed room some1 fits tipFits)
    · exact request_refused ready rfl (postCashOwner_full hsl stopped unclaimed full)
    · exact request_refused ready rfl (postCashOwner_claimed hsl stopped claimed)
  · have offered : Kind.reverse.offered p = true := offered_claimants rfl port
    refine ⟨fun e one there => ?_, fun outside => ?_⟩
    · have work := reverseOwner_entry hsl stopped own ((entry_eq one).trans there)
      refine ⟨fun approved notCash => ?_, fun fails => ?_⟩
      · rw [checked_ok (by simp [firstRefusal, (isApproved_true e).2 approved, notCash]), reverseEntry_eq] at work
        exact request_done ready offered work
      · rw [checked_no (c := .notPermitted) (firstRefusal_shared (by simp) (by simpa [isApproved_false] using fails))] at work
        exact request_refused ready offered work
    · have missing : (s.hire sl).entry entry.toNat = none := by
        unfold Hire.entry
        split
        · rfl
        · exact List.getElem?_eq_none (by omega)
      exact request_refused ready offered (reverseOwner_noSuch hsl stopped own missing)

end Sys2Proof.Machine
end

section
/-! PAYMENT_RESULT (R82 to R88): the hire and the entry a result speaks of, what each state of the entry makes of it, the trace of a late
approval, and the statements on them. -/

namespace Sys2Proof.Machine

/-- A request is answered with the code and the items of its owner, on the state its owner leaves. -/
theorem request_answers {s t : State} {p : PortId} {k : Kind} {tag : Byte} {owner : Owner} {c : Code} {items : List Byte} (h : Ready s p)
    (hk : k.offered p = true) (work : owner s = (t, .of c items)) : request p k tag owner s = .next (t.replied p k tag c items) := by
  rw [request_ready h hk, work]
  rfl

/-! ### The fields of a result -/

theorem byte_zero_or_one {b : Byte} (small : b.toNat ≤ 1) : b = 0 ∨ b = 1 := by
  have cases : b.toNat = 0 ∨ b.toNat = 1 := by omega
  exact cases.imp BitVec.eq_of_toNat_eq BitVec.eq_of_toNat_eq

theorem resultOf_some {b : Byte} (small : b.toNat ≤ 1) : ∃ approved, resultOf b = some approved := by
  rcases byte_zero_or_one small with rfl | rfl
  · exact ⟨true, rfl⟩
  · exact ⟨false, rfl⟩

theorem routeOf_some {b : Byte} (small : b.toNat ≤ 1) : ∃ r, routeOf b = some r := by
  rcases byte_zero_or_one small with rfl | rfl
  · exact ⟨.online, rfl⟩
  · exact ⟨.offline, rfl⟩

theorem resultOf_approved {b : Byte} (zero : b = 0) : resultOf b = some true := by rw [zero]; rfl

theorem resultOf_declined {b : Byte} (one : b = 1) : resultOf b = some false := by rw [one]; rfl

theorem routeOf_online {b : Byte} (zero : b = 0) : routeOf b = some .online := by rw [zero]; rfl

theorem routeOf_offline {b : Byte} (one : b = 1) : routeOf b = some .offline := by rw [one]; rfl

/-! ### The hire and the entry a result speaks of -/

section
variable {p : PortId} {f : ResultFields} {sl : SlotId} {e : Payment} {s : State} {approved : Bool} {route : Route}

theorem SpeaksOf.named (speaks : SpeaksOf s sl f e) (present : (s.hire sl).stage = .stopped ∨ (s.hire sl).stage = .filing) :
    (s.hire sl).named f.hire.toNat = true := by
  obtain ⟨-, number, -⟩ := speaks
  rcases present with stage | stage <;> simp [Hire.named, number, stage]

theorem SpeaksOf.entry (speaks : SpeaksOf s sl f e) : (s.hire sl).entry f.entry.toNat = some e := by
  obtain ⟨-, -, one, there, -⟩ := speaks
  exact (entry_eq one).trans there

theorem SpeaksOf.repeats (speaks : SpeaksOf s sl f e) : repeats f e = true := by
  obtain ⟨-, -, -, -, method, amount, tip⟩ := speaks
  simp [Machine.repeats, method, amount, tip]

theorem SpeaksOf.number (speaks : SpeaksOf s sl f e) : (s.hire sl).number.getD 0 = f.hire.toNat := by
  obtain ⟨-, number, -⟩ := speaks
  rw [number]
  rfl

/-- A result whose hire is in its slot is one for the entry it names, by that entry's state (R82). -/
theorem paymentResultOwner_present (result : resultOf f.result = some approved) (routed : routeOf f.route = some route)
    (speaks : SpeaksOf s sl f e) (present : (s.hire sl).stage = .stopped ∨ (s.hire sl).stage = .filing) :
    paymentResultOwner p f s = presentResult p sl f approved route s := by
  have slot : slotOf f.slot = some sl := speaks.1
  unfold paymentResultOwner
  rw [result, routed, slot]
  exact if_pos (speaks.named present)

theorem presentResult_pending (speaks : SpeaksOf s sl f e) (stopped : (s.hire sl).stage = .stopped) (pending : e.state = .pending) :
    presentResult p sl f approved route s = pendingResult p sl f approved route e s := by
  simp [presentResult, stopped, speaks.entry, speaks.repeats, pending]

theorem presentResult_expired (speaks : SpeaksOf s sl f e) (present : (s.hire sl).stage = .stopped ∨ (s.hire sl).stage = .filing)
    (expired : e.state = .expired) : presentResult p sl f approved route s = expiredResult p sl f approved e s := by
  rcases present with stage | stage <;> simp [presentResult, stage, speaks.entry, speaks.repeats, expired]

/-- A hire that has left its slot: another stands there, or none does (R82, R87). -/
theorem named_gone {h : Hire} {n : Nat} (gone : h.number ≠ some n ∨ h.stage = .free ∨ h.stage = .booked) : h.named n = false := by
  rcases gone with other | free | booked
  · simp [Hire.named, other]
  · simp [Hire.named, free]
  · simp [Hire.named, booked]

theorem paymentResultOwner_gone (result : resultOf f.result = some approved) (routed : routeOf f.route = some route)
    (slot : slotOf f.slot = some sl) (gone : (s.hire sl).named f.hire.toNat = false) :
    paymentResultOwner p f s = goneResult sl f approved s := by
  unfold paymentResultOwner
  rw [result, routed, slot]
  exact if_neg (by simp [gone])

theorem goneResult_eq {m : PayMethod} (method : methodOf f.method = some m) : goneResult sl f approved s
    = (if approved then s.lateApproval sl f.hire.toNat m f.amount.toNat f.tip.toNat f.reference else s, .of .late []) := by
  unfold goneResult
  rw [method]
  cases approved <;> rfl

/-- A refusal for an entry carries its state (R82). -/
theorem refusedWith_entry (c : Code) (e : Payment) (s : State) : refusedWith c (some e) s = (s, .of c [1, e.state.byte]) := rfl

/-! ### A PENDING entry -/

/-- A result written renews the claim, so the hire stays in its slot. -/
theorem writeResult_eq (p : PortId) (sl : SlotId) (i : Nat) (e : Payment) (s : State) :
    writeResult p sl i e s = done (s.putHire sl (s.claimed p ((s.hire sl).putEntry i e))) [] := by
  unfold writeResult
  rw [settleAndFile_putClaimed]

theorem refusedWith_pending (c : Code) (pending : e.state = .pending) : refusedWith c (some e) s = (s, .of c [1, 0]) := by
  rw [refusedWith_entry, pending]
  rfl

theorem pendingResult_claimed (pending : e.state = .pending) (other : (s.hire sl).claimedBy p = false) :
    pendingResult p sl f approved route e s = (s, .of .claimed [1, 0]) := by
  simp [pendingResult, other, refusedWith_pending _ pending]

theorem pendingResult_range (pending : e.state = .pending) (own : (s.hire sl).claimedBy p = true) (account : e.method = .account) :
    pendingResult p sl f approved .offline e s = (s, .of .range [1, 0]) := by
  simp [pendingResult, own, account, refusedWith_pending _ pending]

theorem pendingResult_declined (own : (s.hire sl).claimedBy p = true) (allowed : ¬(route = .offline ∧ e.method = .account)) :
    pendingResult p sl f false route e s
      = done (s.putHire sl (s.claimed p ((s.hire sl).putEntry f.entry.toNat (e.answered .declined route f.reference)))) [] := by
  simp [pendingResult, own, allowed, writeResult_eq]

theorem pendingResult_online (own : (s.hire sl).claimedBy p = true) : pendingResult p sl f true .online e s
    = done (s.putHire sl (s.claimed p ((s.hire sl).putEntry f.entry.toNat (e.answered .approved .online f.reference)))) [] := by
  simp [pendingResult, own, writeResult_eq]

/-- APPROVED, OFFLINE within the ceiling raises the offline total (R84). -/
theorem pendingResult_offline (own : (s.hire sl).claimedBy p = true) (card : e.method = .card)
    (within : s.shift.offlineTotal + e.amount ≤ s.shift.ceiling) : pendingResult p sl f true .offline e s
      = done ((s.setOffline (s.shift.offlineTotal + e.amount)).putHire sl
          (s.claimed p ((s.hire sl).putEntry f.entry.toNat (e.answered .approved .offline f.reference)))) [] := by
  simp only [pendingResult, own, card, within, writeResult_eq]
  rfl

theorem pendingResult_overCeiling (pending : e.state = .pending) (own : (s.hire sl).claimedBy p = true) (card : e.method = .card)
    (above : s.shift.ceiling < s.shift.offlineTotal + e.amount) :
    pendingResult p sl f true .offline e s = (s, .of .overCeiling [1, 0]) := by
  simp [pendingResult, own, card, Nat.not_le.2 above, refusedWith_pending _ pending]

/-! ### An EXPIRED entry -/

theorem expiredResult_notClaimant (expired : e.state = .expired) (other : e.port ≠ p) :
    expiredResult p sl f approved e s = (s, .of .notClaimant [1, 3]) := by
  unfold expiredResult
  rw [if_pos other, refusedWith_entry, expired]
  rfl

theorem expiredResult_late (creator : e.port = p) :
    expiredResult p sl f approved e s = ((s.lateResult sl f approved e).renew p sl, .of .late []) := by
  unfold expiredResult
  rw [if_neg (not_not.2 creator)]

theorem lateResult_declined : s.lateResult sl f false e = s := rfl

/-- The mark of an entry tells that its approval has been recorded (R86). -/
theorem lateResult_marked (stopped : (s.hire sl).stage = .stopped) (marked : e.late = true) : s.lateResult sl f approved e = s := by
  simp [State.lateResult, stopped, marked]

theorem lateResult_stopped (stopped : (s.hire sl).stage = .stopped) (unmarked : e.late = false) (speaks : SpeaksOf s sl f e) :
    s.lateResult sl f true e = (s.putHire sl ((s.hire sl).putEntry f.entry.toNat { e with late := true })).lateApproval sl f.hire.toNat
      e.method e.amount e.tip f.reference := by
  simp [State.lateResult, stopped, unmarked, speaks.number]

theorem lateResult_filing (filing : (s.hire sl).stage = .filing) (speaks : SpeaksOf s sl f e) :
    s.lateResult sl f true e = s.lateApproval sl f.hire.toNat e.method e.amount e.tip f.reference := by
  simp [State.lateResult, filing, speaks.number]

end

/-! ### A late approval -/

/-- A record handed over outside FAULT with free slots above the reserve alone (R88). -/
def State.handOverAbove (s : State) (b : RecordBody) : State :=
  if !s.journal.inFault && decide (s.reserve < s.journal.free) then s.handOver b else s

theorem lateApproval_eq (s : State) (sl : SlotId) (n : Nat) (m : PayMethod) (amount tip : Nat) (ref : BitVec 96) :
    s.lateApproval sl n m amount tip ref
      = (((s.count .lateApprovals 1).handOverAbove (.lateApproval sl n m amount tip ref)).notify .fleet .lateApproval).fileOn := rfl

theorem handOver_paymentPort (s : State) (b : RecordBody) : (s.handOver b).port .payment = s.port .payment := by
  unfold State.handOver State.updateLow
  dsimp only
  split
  · split <;> rfl
  · rfl

section
variable {s : State} {b : RecordBody}

/-- A record of any kind joins the queue when a slot is free and no recovery runs (R120). -/
theorem handOver_room (room : 1 ≤ s.journal.free) (noRecovery : s.partClear ≠ .recovering) :
    (s.handOver b).journal.queue = s.journal.queue ++ [s.formRecord b] := by
  unfold State.handOver
  rw [if_pos (by simp [State.acceptsRecord, room, noRecovery]), updateLow_journal]

theorem handOver_recovering (unreserved : b.reserved = false) (recovering : s.partClear = .recovering) : s.handOver b = s := by
  unfold State.handOver
  rw [if_neg (by simp [State.acceptsRecord, unreserved, recovering])]

theorem handOverAbove_room (normal : s.journal.state = .normal) (above : s.reserve < s.journal.free) :
    s.handOverAbove b = s.handOver b := by
  unfold State.handOverAbove
  exact if_pos (by simp [(inFault_false_iff _).2 normal, above])

/-- In FAULT, with no slot above the reserve, or in a recovery nothing is handed over (R88, R130). -/
theorem handOverAbove_nothing (unreserved : b.reserved = false)
    (noRoom : s.journal.state ≠ .normal ∨ s.journal.free ≤ s.reserve ∨ s.partClear = .recovering) : s.handOverAbove b = s := by
  unfold State.handOverAbove
  rcases noRoom with fault | full | recovering
  · exact if_neg (by simp [Journal.inFault, fault])
  · exact if_neg (by simp [full])
  · rw [handOver_recovering unreserved recovering, ite_self]

/-- Handing over what there is room for moves no hire, no sum and not the Payment port, and keeps the journal's filing. -/
theorem handOverAbove_kept (s : State) (b : RecordBody) : Mild s (s.handOverAbove b) ∧ (s.handOverAbove b).money = s.money
    ∧ (s.handOverAbove b).port .payment = s.port .payment := by
  unfold State.handOverAbove
  split
  · exact ⟨mild_handOver _ _, handOver_money _ _, handOver_paymentPort _ _⟩
  · exact ⟨Mild.refl _, rfl, rfl⟩

end

/-- With a journal that can go on filing, or stands in FAULT with nothing to file, a late approval is counted, told to the Fleet port and
handed over, and no hire changes (R88). -/
theorem lateApproval_traced (s : State) (sl : SlotId) (n : Nat) (m : PayMethod) (amount tip : Nat) (ref : BitVec 96)
    (goesOn : s.journal.steady ∨ (s.journal.queue = [] ∧ s.journal.state ≠ .normal)) :
    ∃ t, t = s.lateApproval sl n m amount tip ref ∧ t.shift = s.shift.count .lateApprovals 1
      ∧ (t.port .fleet).holds .lateApproval = true ∧ t.hires = s.hires ∧ t.port .payment = s.port .payment
      ∧ t.journal.queue = ((s.count .lateApprovals 1).handOverAbove (.lateApproval sl n m amount tip ref)).journal.queue := by
  obtain ⟨x, hx⟩ : ∃ x, x = (s.count .lateApprovals 1).handOverAbove (.lateApproval sl n m amount tip ref) := ⟨_, rfl⟩
  obtain ⟨mild, money, payment⟩ := handOverAbove_kept (s.count .lateApprovals 1) (.lateApproval sl n m amount tip ref)
  rw [← hx] at mild money payment
  have steady : x.journal.steady ∨ x.journal.queue = [] := by
    refine goesOn.imp mild.j.steady.2 fun ⟨nothing, fault⟩ => ?_
    rw [hx, handOverAbove_nothing (s := s.count .lateApprovals 1) rfl (.inl fault)]
    exact nothing
  obtain ⟨flight, filed, -⟩ := fileOn_goesOn (z := x.notify .fleet .lateApproval) steady
  refine ⟨_, rfl, ?_⟩
  rw [lateApproval_eq, ← hx, filed]
  exact ⟨congrArg Prod.snd money, add_self _ _, congrArg Prod.fst money, payment, rfl⟩

/-- Settles O23: each result and route for a PENDING entry, from the claimant and from another port. -/
theorem resultsAnswerPendingEntries : Obligations.ResultsAnswerPendingEntries := by
  intro p tag f sl e s ready port speaks stopped pending
  have offered : Kind.paymentResult.offered p = true := offered_claimants rfl port
  have work : ∀ {approved route}, resultOf f.result = some approved → routeOf f.route = some route →
      paymentResultOwner p f s = pendingResult p sl f approved route e s := fun result routed =>
    (paymentResultOwner_present result routed speaks (.inl stopped)).trans (presentResult_pending speaks stopped pending)
  refine ⟨fun own => ⟨fun r declined routed allowed => ?_, fun zero online => ?_, fun zero one card within => ?_,
    fun zero one card above => ?_, fun small one account => ?_⟩, fun other small smallRoute => ?_⟩
  · exact request_done ready offered ((work (resultOf_declined declined) routed).trans (pendingResult_declined own allowed))
  · exact request_done ready offered ((work (resultOf_approved zero) (routeOf_online online)).trans (pendingResult_online own))
  · exact request_done ready offered
      ((work (resultOf_approved zero) (routeOf_offline one)).trans (pendingResult_offline own card within))
  · exact request_answers ready offered
      ((work (resultOf_approved zero) (routeOf_offline one)).trans (pendingResult_overCeiling pending own card above))
  · obtain ⟨approved, result⟩ := resultOf_some small
    exact request_answers ready offered ((work result (routeOf_offline one)).trans (pendingResult_range pending own account))
  · obtain ⟨approved, result⟩ := resultOf_some small
    obtain ⟨route, routed⟩ := routeOf_some smallRoute
    exact request_answers ready offered ((work result routed).trans (pendingResult_claimed pending other))

section
variable {p : PortId} {tag : Byte} {f : ResultFields} {sl : SlotId} {e : Payment} {s t : State} {approved : Bool} {route : Route}

theorem paymentResultOwner_expired (routed : routeOf f.route = some route) (speaks : SpeaksOf s sl f e) (expired : e.state = .expired)
    (present : (s.hire sl).stage = .stopped ∨ (s.hire sl).stage = .filing) (result : resultOf f.result = some approved) :
    paymentResultOwner p f s = expiredResult p sl f approved e s :=
  (paymentResultOwner_present result routed speaks present).trans (presentResult_expired speaks present expired)

/-- The port that created an EXPIRED entry is answered LATE, and its claim is renewed if it is the claimant (R86, R87). -/
theorem exec_paymentResult_late (ready : Ready s p) (port : p ≠ .console) (creator : e.port = p) (left : s.lateResult sl f approved e = t)
    (work : paymentResultOwner p f s = expiredResult p sl f approved e s) :
    exec (.paymentResult p tag f) s = .next ((t.renew p sl).replied p .paymentResult tag .late []) := by
  subst left
  exact request_answers ready (offered_claimants rfl port) (work.trans (expiredResult_late creator))

theorem exec_paymentResult_notClaimant (ready : Ready s p) (port : p ≠ .console) (other : e.port ≠ p) (expired : e.state = .expired)
    (work : paymentResultOwner p f s = expiredResult p sl f approved e s) :
    exec (.paymentResult p tag f) s = .next (s.replied p .paymentResult tag .notClaimant [1, 3]) :=
  request_answers ready (offered_claimants rfl port) (work.trans (expiredResult_notClaimant expired other))

end

/-- Settles O24: a result for an EXPIRED entry and for a hire that has left, and the trace a late approval leaves. -/
theorem lateResultsLeaveATrace : Obligations.LateResultsLeaveATrace := by
  refine ⟨fun p tag f sl s ready port smallRoute => ?_, fun s sl n m amount tip ref goesOn => ?_⟩
  · obtain ⟨route, routed⟩ := routeOf_some smallRoute
    refine ⟨fun e speaks expired => ?_, fun m slot gone method => ?_⟩
    · have work := fun approved => paymentResultOwner_expired (p := p) (approved := approved) routed speaks expired
      refine ⟨fun stopped creator => ⟨?_, fun zero unmarked => ?_⟩, fun filing creator zero => ?_, fun present other small => ?_⟩
      · rintro (declined | ⟨zero, marked⟩)
        · exact exec_paymentResult_late ready port creator lateResult_declined (work _ (.inl stopped) (resultOf_declined declined))
        · exact exec_paymentResult_late ready port creator (lateResult_marked stopped marked)
            (work _ (.inl stopped) (resultOf_approved zero))
      · exact exec_paymentResult_late ready port creator (lateResult_stopped stopped unmarked speaks)
          (work _ (.inl stopped) (resultOf_approved zero))
      · exact exec_paymentResult_late ready port creator (lateResult_filing filing speaks)
          (work _ (.inr filing) (resultOf_approved zero))
      · obtain ⟨approved, result⟩ := resultOf_some small
        exact exec_paymentResult_notClaimant ready port other expired (work _ present result)
    · have offered : Kind.paymentResult.offered p = true := offered_claimants rfl port
      have work : ∀ {approved}, resultOf f.result = some approved → paymentResultOwner p f s = goneResult sl f approved s :=
        fun result => paymentResultOwner_gone result routed slot (named_gone gone)
      exact ⟨fun zero => request_answers ready offered ((work (resultOf_approved zero)).trans (goneResult_eq method)),
        fun one => request_answers ready offered ((work (resultOf_declined one)).trans (goneResult_eq method))⟩
  · obtain ⟨t, rfl, shift, told, hires, payment, queue⟩ := lateApproval_traced s sl n m amount tip ref goesOn
    refine ⟨_, rfl, shift, told, hires, payment, fun normal above noRecovery => ?_, fun noRoom => ?_⟩
    · have room : 1 ≤ s.journal.free := by omega
      rw [queue, handOverAbove_room (s := s.count .lateApprovals 1) normal above]
      exact handOver_room (s := s.count .lateApprovals 1) room noRecovery
    · rw [queue, handOverAbove_nothing (s := s.count .lateApprovals 1) rfl noRoom]
      rfl

end Sys2Proof.Machine
end

section
/-! Shift Accounting: the shift counters, the open and the pooling of a shift, the ports' masks and snapshots, and the totalizer writes
(R97 to R99, R105, R108, R109, R111 to R114, R182), with their statements. -/

namespace Sys2Proof.Machine

/-! ### Shift counters -/

section
variable {c : Counter} {n : Nat}

theorem counter_add_within (unmarked : c.mark = false) (within : c.value + n ≤ 4294967295) : c.add n = ⟨c.value + n, false⟩ := by
  unfold Counter.add
  rw [unmarked, if_neg (by decide)]
  exact if_neg (Nat.not_lt.2 within)

theorem counter_add_past (unmarked : c.mark = false) (past : 4294967295 < c.value + n) : c.add n = ⟨4294967295, true⟩ := by
  unfold Counter.add
  rw [unmarked, if_neg (by decide)]
  exact if_pos past

theorem counter_add_marked (marked : c.mark = true) : c.add n = c := by
  unfold Counter.add
  rw [if_pos marked]

end

/-- An open derives the lamps afresh and leaves the shift as R98 spells it. -/
theorem openShift_shift (s : State) (driver : Nat) :
    (s.openShift driver).shift = s.shift.opening driver s.clock s.tariffs.config := by
  unfold State.openShift
  rw [rederive_only]

/-- Settles O12: an addition in the cases of the mark and the sum; the others by the places, which are distinct; the open by the shift it
leaves. -/
theorem countersSaturateWithTheirMarks : Obligations.CountersSaturateWithTheirMarks := by
  refine ⟨fun c n => ⟨counter_add_within, counter_add_past, counter_add_marked⟩, rfl, fun x id n law => ?_, fun s driver => ?_⟩
  · exact ⟨countersLaw_count law id n, (counter_count law id n id).trans (if_pos rfl),
      fun other ne => (counter_count law id n other).trans (if_neg ne)⟩
  · rw [openShift_shift]
    rfl

/-! ### OPEN_SHIFT and SET_POOLING -/

/-- With every check of R97 passing the shift opens. -/
theorem openShiftOwner_done {driver : Half} {s : State} (closed : s.shift.state = .closed) (some1 : 1 ≤ driver.toNat)
    (idle : s.storeBusy = false) (noTest : s.sign.test = none) (tariff : s.tariffs.active.hasTariff = true)
    (normal : s.journal.state = .normal) (room : 4 ≤ s.journal.free) :
    openShiftOwner driver s = done (s.openShift driver.toNat) (be2 (shiftNumberAfter s.shift.number)) :=
  checked_ok (by simp [firstRefusal, closed, some1, idle, noTest, tariff, (inFault_false_iff _).2 normal, room])

theorem setPoolingOwner_done {s : State} (on : Bool) (opened : s.shift.state = .opened) : setPoolingOwner (flagByte on) s
    = done ({ s with shift := { s.shift with pooling := on } } : State).rederive [] := by
  unfold setPoolingOwner
  rw [onOff_flagByte]
  exact checked_ok (by simp [firstRefusal, opened])

theorem setPoolingOwner_shiftState {s : State} (on : Bool) (notOpen : s.shift.state ≠ .opened) :
    setPoolingOwner (flagByte on) s = (s, .refuse .shiftState) := by
  unfold setPoolingOwner
  rw [onOff_flagByte]
  exact checked_no (by simp [firstRefusal, notOpen])

/-- A byte above 1 is no flag (R185). -/
theorem onOff_above {b : Byte} (above : 1 < b.toNat) : onOff b = none := by
  have not0 : b ≠ 0 := by
    rintro rfl
    exact absurd above (by decide)
  have not1 : b ≠ 1 := by
    rintro rfl
    exact absurd above (by decide)
  unfold onOff
  rw [if_neg not0, if_neg not1]

theorem setPoolingOwner_range {b : Byte} (s : State) (above : 1 < b.toNat) : setPoolingOwner b s = (s, .refuse .range) := by
  unfold setPoolingOwner
  rw [onOff_above above]

/-- Settles O14: each request by its owner's work once its checks are read. -/
theorem shiftsOpenAndPool : Obligations.ShiftsOpenAndPool := by
  refine ⟨fun tag driver s ready closed some1 noActivation noWrite noClear noTest tariff normal room => ?_,
    fun tag s ready => ⟨fun on opened => ?_, fun on notOpen => ?_, fun b above => ?_⟩⟩
  · have idle : s.storeBusy = false := by simp [State.storeBusy, noActivation, noWrite, noClear]
    exact request_done ready rfl (openShiftOwner_done closed some1 idle noTest tariff normal room)
  · exact request_done ready rfl (setPoolingOwner_done on opened)
  · exact request_refused ready rfl (setPoolingOwner_shiftState on notOpen)
  · exact request_refused ready rfl (setPoolingOwner_range s above)

/-! ### Masks and snapshots -/

/-- A kind of the three ports is offered on each of them (R180). -/
theorem offered_everywhere {k : Kind} (offers : k.offers = (true, true, true)) (p : PortId) : k.offered p = true := by
  unfold Kind.offered
  rw [offers]
  cases p <;> rfl

/-- Two kinds of one row of R180's table are offered on the same ports. -/
theorem offered_congr {j k : Kind} (offers : j.offers = k.offers) (p : PortId) : j.offered p = k.offered p := by
  unfold Kind.offered
  rw [offers]

section
variable {p : PortId} {index : Byte} {s : State} {x : Snapshot}

theorem readCounterOwner_notLatched (empty : (s.port p).snapshot = none) :
    readCounterOwner p index s = (s, ⟨true, [[Code.notLatched.byte]]⟩) := by
  unfold readCounterOwner
  rw [empty]

theorem readCounterOwner_done (latched : (s.port p).snapshot = some x) (within : index.toNat < 20) :
    readCounterOwner p index s = done s (x.value index.toNat ++ x.labels) := by
  unfold readCounterOwner
  rw [latched]
  exact if_pos within

theorem readCounterOwner_range (latched : (s.port p).snapshot = some x) (past : 20 ≤ index.toNat) :
    readCounterOwner p index s = (s, .of .range x.labels) := by
  unfold readCounterOwner
  rw [latched]
  exact if_neg (Nat.not_lt.2 past)

end

/-- The value of an index with the snapshot's labels, as R114 spells them. -/
theorem value_labels_eq (x : Snapshot) (i : Nat) : x.value i ++ x.labels
    = (if i < 15 then be4 (x.counters.getD i ⟨0, false⟩).value ++ [flagByte (x.counters.getD i ⟨0, false⟩).mark]
        else be4 (x.totals.at (i - 15))) ++ be2 x.number ++ [x.state.byte] := by
  rw [List.append_assoc]
  rfl

/-- A reply touches its port alone (R177). -/
theorem replied_onlyPort (s : State) (p : PortId) (k : Kind) (tag : Byte) (c : Code) (items : List Byte) :
    OnlyPort s (s.replied p k tag c items) p := by
  unfold OnlyPort State.replied State.answer
  rw [port_putPort_same]
  rfl

theorem replied_payloads (s : State) (p : PortId) (k : Kind) (tag : Byte) (c : Code) (items : List Byte) :
    ((s.replied p k tag c items).port p).reply.map Frame.payload = [c.byte :: items] := by
  unfold State.replied State.answer
  rw [port_putPort_same]
  rfl

/-- Settles O8: the masks and the snapshot by the port each owner writes, READ_COUNTER by the snapshot and the index. -/
theorem masksAndSnapshotsAreKeptPerPort : Obligations.MasksAndSnapshotsAreKeptPerPort := by
  refine ⟨fun p tag s ready => ⟨fun mask => ?_, fun mask => ?_⟩, fun p tag s ready offered => ⟨?_, ?_, fun index empty => ?_,
    fun index x latched within => ?_, fun index x latched past => ?_⟩⟩
  · exact request_done ready (offered_everywhere rfl p) (owner := setNoticeMaskOwner p mask) rfl
  · exact request_done ready (offered_everywhere rfl p) (owner := setStageMaskOwner p mask) rfl
  · exact request_done ready offered (owner := readShiftOwner) rfl
  · have latches := (offered_congr (j := .latchCounters) (k := .readShift) rfl p).trans offered
    exact request_done ready latches (owner := latchCountersOwner p) rfl
  all_goals have reads := (offered_congr (j := .readCounter) (k := .readShift) rfl p).trans offered
  · show request p .readCounter tag (readCounterOwner p index) s = _
    rw [request_ready ready reads, readCounterOwner_notLatched empty]
    rfl
  · have work := readCounterOwner_done latched within
    rw [value_labels_eq] at work
    exact request_done ready reads work
  · exact ⟨_, request_answers ready reads (readCounterOwner_range latched past), replied_onlyPort _ _ _ _ _ _,
      replied_payloads _ _ _ _ _ _⟩

/-! ### The end of a totalizer write -/

section
variable {s : State} {w : TotalsWrite} {f : ShiftAccounting → TotalsWrite → ShiftAccounting}

/-- What the end of a write says of Shift Accounting, while the part runs with a write in flight (R109, R190). -/
theorem whenRunning_onTotalsWrite (run : s.power = .running) (writing : s.shift.totalsWrite = some w) :
    whenRunning (State.onTotalsWrite f) s = { s with shift := f s.shift w } := by
  rw [whenRunning_eq run]
  unfold State.onTotalsWrite
  rw [writing]

theorem exec_totalizerWriteComplete (run : s.power = .running) (writing : s.shift.totalsWrite = some w) :
    exec .totalizerWriteComplete s = .next { s with shift := s.shift.writeDone w } :=
  congrArg Host.Outcome.next (whenRunning_onTotalsWrite run writing)

theorem exec_totalizerWriteFail (run : s.power = .running) (writing : s.shift.totalsWrite = some w) :
    exec .totalizerWriteFail s = .next { s with shift := s.shift.writeFailed w } :=
  congrArg Host.Outcome.next (whenRunning_onTotalsWrite run writing)

end

/-- After a write a remembered request begins the next with the values as they stand, and none stays remembered (R109). -/
theorem nextWrite_eq (x : ShiftAccounting) : x.nextWrite = { x with
    totalsWrite := if x.remembered then some ⟨x.totals, 0⟩ else none
    remembered := false
    gained := if x.remembered then 0 else x.gained } := by
  unfold ShiftAccounting.nextWrite
  split
  case isTrue => rfl
  case isFalse unasked => rw [← Bool.eq_false_iff.2 unasked]

theorem writeFailed_again {w : TotalsWrite} (x : ShiftAccounting) (below : w.failures < 2) :
    x.writeFailed w = { x with totalsWrite := some { w with failures := w.failures + 1 } } := by
  unfold ShiftAccounting.writeFailed
  rw [if_pos below]

/-- The third failure ends the write BEHIND, or LOST where LOST stands (R109, R111). -/
theorem writeFailed_ends {w : TotalsWrite} (x : ShiftAccounting) (third : 2 ≤ w.failures) :
    x.writeFailed w = { x with totalsStatus := if x.totalsStatus = TotalsStatus.lost then .lost else .behind }.nextWrite := by
  unfold ShiftAccounting.writeFailed
  rw [if_neg (Nat.not_lt.2 third)]

/-! ### The totalizer write of every 100 metres -/

theorem hundredFalls_iff (s : State) : s.hundredFalls = true
    ↔ s.shift.gained < 100 ∧ 100 ≤ s.shift.gained + metresDrawn s.tariffs.config.k s.odoRem := by
  simp [State.hundredFalls]

/-- Shift Accounting with a pulse's whole metres joined to total metres, before a write is asked for (R48, R109). -/
def ShiftAccounting.gain (x : ShiftAccounting) (n : Nat) : ShiftAccounting :=
  { x with totals := { x.totals with totalMetres := wrapAdd x.totals.totalMetres n }, gained := x.gained + n }

/-- Metres that bring the gain to 100 ask for a write once they have joined (R109). -/
theorem addOdometer_hundred {x : ShiftAccounting} {n : Nat} (below : x.gained < 100) (reached : 100 ≤ x.gained + n) :
    x.addOdometer n = (x.gain n).askTotals := by
  unfold ShiftAccounting.addOdometer
  exact if_pos (by simp [below, reached])

theorem askTotals_begins {x : ShiftAccounting} (idle : x.totalsWrite = none) : x.askTotals = x.beginTotals := by
  unfold ShiftAccounting.askTotals
  rw [idle]
  rfl

theorem askTotals_remembers {x : ShiftAccounting} (writing : x.totalsWrite.isSome) : x.askTotals = { x with remembered := true } := by
  unfold ShiftAccounting.askTotals
  rw [if_pos writing]

/-- The vacant metres are counted beside the totalizers (R47). -/
theorem pulsedShift_only (s : State) : s.pulsedShift = { s.shift with counters := s.pulsedShift.counters } := by
  unfold State.pulsedShift
  split <;> rfl

/-- The pulse of the hundredth metre asks for a write in Shift Accounting as its other work leaves it (R109). -/
theorem wheelPulse_hundred {s : State} (below : s.shift.gained < 100)
    (reached : 100 ≤ s.shift.gained + metresDrawn s.tariffs.config.k s.odoRem) :
    s.wheelPulse.shift = (s.pulsedShift.gain (metresDrawn s.tariffs.config.k s.odoRem)).askTotals := by
  have gained : s.pulsedShift.gained = s.shift.gained := by rw [pulsedShift_only]
  obtain ⟨_, -, out⟩ := wheelPulse_out s
  rw [out]
  exact addOdometer_hundred (by rw [gained]; exact below) (by rw [gained]; exact reached)

/-- Settles O16: the ends of a write by what each leaves in Shift Accounting, the pulse by the write it asks for. -/
theorem totalizerWritesBeginAndEnd : Obligations.TotalizerWritesBeginAndEnd := by
  refine ⟨fun s w run writing => ⟨?_, fun below => ?_, fun third => ?_⟩, fun s run below reached => ?_⟩
  · refine ⟨_, exec_totalizerWriteComplete run writing, rfl, ?_⟩
    unfold ShiftAccounting.writeDone
    rw [nextWrite_eq]
    exact ⟨write_current _ _, rfl, rfl, rfl, rfl⟩
  · rw [exec_totalizerWriteFail run writing, writeFailed_again _ below]
  · refine ⟨_, exec_totalizerWriteFail run writing, rfl, ?_⟩
    rw [writeFailed_ends _ third, nextWrite_eq]
    exact ⟨rfl, rfl, rfl⟩
  · have pulse : whenRunning State.wheelPulse s = s.wheelPulse := whenRunning_eq run _
    have falls : s.hundredFalls = true := (hundredFalls_iff s).2 ⟨below, reached⟩
    have inFlight : (s.pulsedShift.gain (metresDrawn s.tariffs.config.k s.odoRem)).totalsWrite = s.shift.totalsWrite := by
      rw [pulsedShift_only]
      rfl
    refine ⟨s.wheelPulse, congrArg Host.Outcome.next ((if_pos falls).trans pulse), congrArg Host.Outcome.next pulse, fun idle => ?_,
      fun writing => ?_⟩ <;> rw [wheelPulse_hundred below reached]
    · rw [askTotals_begins (inFlight.trans idle)]
      exact ⟨rfl, rfl⟩
    · rw [askTotals_remembers (by rw [inFlight]; exact writing)]
      exact ⟨inFlight, rfl⟩

end Sys2Proof.Machine
end

section
/-! The filing of the head of the queue (R121, R124). -/

namespace Sys2Proof.Machine

/-! ### The head of the queue -/

theorem writingOpen_iff (j : Journal) : j.writingOpen = true ↔ j.state ≠ .fault .retiredList := by
  simp [Journal.writingOpen]

/-- With writing closed or the writer's slot taken, a journal with nothing in flight has no place for a record (R124). -/
theorem noPlace_of {j : Journal} (noFlight : j.inFlight = none)
    (nowhere : j.state = .fault .retiredList ∨ j.slotFree j.writer = false) : NoPlace j := by
  refine ⟨noFlight, ?_⟩
  rcases nowhere with closed | taken
  · simp [Journal.writingOpen, closed]
  · rw [taken, Bool.and_false]

/-- The head of the queue takes the next number and the writer's place (R121). -/
theorem fileOn_begins {s : State} (noFlight : s.journal.inFlight = none) (waiting : s.journal.queue ≠ [])
    (opened : s.journal.state ≠ .fault .retiredList) (free : s.journal.slotFree s.journal.writer = true) :
    s.fileOn = { s with journal := { s.journal with inFlight := some ⟨s.journal.nextSeq, s.journal.writer⟩ } } := by
  obtain ⟨f, out, -, -, begun⟩ := fileOn_steady s (.inr ⟨(writingOpen_iff _).2 opened, free⟩)
  rw [out, begun noFlight waiting]

/-- While a record is in flight none begins (R121). -/
theorem fileOn_inFlight {s : State} (flying : s.journal.inFlight.isSome) : s.fileOn = s := by
  obtain ⟨f, out, kept, -⟩ := fileOn_steady s (.inl flying)
  rw [out, kept flying]

/-- A record alone in the queue that finds no slot: its filing ends and, unless it hands another record over, that is all (R124). -/
theorem fileOn_noSlot {s : State} {r : JournalRecord} (queued : s.journal.queue = [r]) (nowhere : NoPlace s.journal)
    (last : (s.noSlot r []).journal.queue = []) : s.fileOn = s.noSlot r [] := by
  unfold State.fileOn
  rw [beginFiling_noPlace _ s r [] nowhere queued, beginFiling_nothing _ _ last]

/-- A SHIFT record that finds no slot closes its shift, and every port is told (R103, R124). -/
theorem noSlot_shift_told (s : State) {r : JournalRecord} (rest : List JournalRecord) {d : Nat} {o c : ClockTime} {k : List Counter}
    (body : r.body = .shift d o c k) :
    (s.noSlot r rest).shift.summary = false ∧ ∀ p, ((s.noSlot r rest).port p).holds .shiftClosed = true := by
  obtain ⟨x, out⟩ : ∃ x : State, s.noSlot r rest = x.completeShift := ⟨_, by unfold State.noSlot; rw [body]; rfl⟩
  obtain ⟨shift, told, -⟩ := completeShift_parts x
  rw [out, shift, (askTotals_parts _).1]
  exact ⟨rfl, told⟩

/-- Settles O13: `fileOn` where the head has a place, and by `noSlot` of each kind of record where it has none. -/
theorem filingTakesAPlaceOrGoesUnfiled : Obligations.FilingTakesAPlaceOrGoesUnfiled := by
  refine ⟨fun s => ⟨fun r rest noFlight queued opened free => ?_, fileOn_inFlight, beginFiling_nothing _ s⟩,
    fun r s noFlight queued nowhere => ⟨fun x body notClosing => ?_, fun d o c k body => ?_, fun unreserved => ?_⟩⟩
  · exact fileOn_begins noFlight (by rw [queued]; exact List.cons_ne_nil _ _) opened free
  · obtain ⟨_, rfl, moved, hires, -, -, -, unfiled, -, goesOn⟩ := noSlot_hire s r [] x body
    obtain ⟨emptied, -⟩ := goesOn (fun closing => notClosing closing.1)
    rw [fileOn_noSlot queued (noPlace_of noFlight nowhere) emptied]
    refine ⟨unfiled, emptied, ?_, hires, ?_, ?_⟩ <;> rw [moved]
    exact noFlight
  · obtain ⟨-, hires, closed, -, unfiled, emptied⟩ := noSlot_shift s (rest := []) body
    obtain ⟨summary, told⟩ := noSlot_shift_told s [] body
    rw [fileOn_noSlot queued (noPlace_of noFlight nowhere) emptied]
    exact ⟨unfiled, emptied, closed, summary, told, hires⟩
  · exact (fileOn_alone queued noFlight unreserved).2 (noPlace_of noFlight nowhere).2

end Sys2Proof.Machine
end

section
/-! The journal's verify events: what the filing that goes on after them keeps, the writer's next page, and their statement (R117 to R123). -/

namespace Sys2Proof.Machine

/-! ### What filing keeps of the journal -/

/-- The journal's pages, writer, numbering, retired list and state are held: it moves by its bookkeeping of records alone. -/
def PagesHeld (j k : Journal) : Prop := k = { j with queue := k.queue, low := k.low, inFlight := k.inFlight, unfiled := k.unfiled }

theorem PagesHeld.refl (j : Journal) : PagesHeld j j := rfl

theorem PagesHeld.trans {i j k : Journal} (h : PagesHeld i j) (g : PagesHeld j k) : PagesHeld i k := by
  unfold PagesHeld at *
  rw [g, h]

theorem JSame.pagesHeld {j k : Journal} (h : JSame j k) : PagesHeld j k := by
  unfold PagesHeld
  rw [h]

/-- A completion may queue the SHIFT record and no more (R23, R102, R103). -/
theorem complete_journal (s : State) (b : RecordBody) : JSame s.journal (s.complete b).journal := by
  cases b with
  | hire r =>
    obtain ⟨z, out, -, -, journal, -⟩ := completeHire_parts s r.slot
    have begun := (mild_beginSummary z).j
    rw [← out, journal] at begun
    exact begun
  | shift d o c k =>
    change JSame s.journal s.completeShift.journal
    rw [completeShift_journal]
    exact JSame.refl _
  | lateApproval sl n m a t ref => exact JSame.refl _
  | activation ids => exact JSame.refl _
  | retentionLost => exact JSame.refl _

theorem noSlot_pages (s : State) (r : JournalRecord) (rest : List JournalRecord) : PagesHeld s.journal (s.noSlot r rest).journal := by
  unfold State.noSlot
  dsimp only
  split
  · refine PagesHeld.trans ?_ (complete_journal _ _).pagesHeld
    rw [updateLow_journal]
    rfl
  · rw [updateLow_journal]
    rfl

theorem beginFiling_pages (n : Nat) : ∀ s : State, PagesHeld s.journal (s.beginFiling n).journal := by
  induction n with
  | zero => exact fun s => PagesHeld.refl _
  | succ n ih =>
    intro s
    unfold State.beginFiling
    split
    · split
      · rfl
      · exact (noSlot_pages _ _ _).trans (ih _)
    · exact PagesHeld.refl _

theorem fileOn_pages (s : State) : PagesHeld s.journal s.fileOn.journal := beginFiling_pages _ s

/-! ### A verify that passes -/

/-- The record in its slot, the number and the writer moved on, and the record out of the queue, before its completion (R121). -/
def State.verified (s : State) (f : Filing) (r : JournalRecord) (rest : List JournalRecord) : State :=
  { s with journal := { s.journal with
      store := slotWrite s.journal.store f.place.index (.whole f.seq r)
      nextSeq := f.seq + 1
      writer := f.place.next s.journal.retired
      queue := rest
      inFlight := none } }

theorem verifyPass_eq {s : State} {f : Filing} {r : JournalRecord} {rest : List JournalRecord} (flying : s.journal.inFlight = some f)
    (queued : s.journal.queue = r :: rest) (below : f.seq < 4294967295) :
    s.verifyPass = (((s.verified f r rest).updateLow).complete r.body).fileOn := by
  unfold State.verifyPass sequenceAfter
  rw [flying, queued]
  simp only [if_pos below]
  rfl

/-- A verify event of a running part, no Part clear in flight, is the Journal's work alone (R121, R122, R192). -/
theorem exec_verify {s t : State} (f : State → State) (run : s.power = .running) (flying : s.journal.inFlight.isSome) (out : f s = t)
    (idle : t.partClear = .idle) : whenRunning (fun s => if s.journal.inFlight.isSome then (f s).partClearOn else s) s = t := by
  rw [whenRunning_eq run, if_pos flying, out, partClearOn_idle t idle]

/-- The pages and the numbering once the record is verified; what follows it keeps them (R117, R118, R121). -/
theorem verified_pages (s : State) (f : Filing) (r : JournalRecord) (rest : List JournalRecord) :
    PagesHeld (s.verified f r rest).journal ((((s.verified f r rest).updateLow).complete r.body).fileOn).journal := by
  refine PagesHeld.trans ?_ ((complete_journal _ _).pagesHeld.trans (fileOn_pages _))
  rw [updateLow_journal]
  rfl

/-! ### A verify that fails -/

/-- The rule on FAULT reaches the journal's state and the ports alone (R123). -/
theorem faultRule_out (s : State) (before : JournalState) : s.faultRule before = { s with
    journal := { s.journal with
      state := if s.journal.state = .normal ∧ s.journal.free < s.reserve then .fault .reserve else s.journal.state }
    ports := (s.faultRule before).ports } := by
  unfold State.faultRule
  dsimp only
  split <;> split <;> rfl

/-- An entry to FAULT from NORMAL is told to the Console and Fleet ports (R123). -/
theorem faultRule_told {s : State} (entered : (s.faultRule .normal).journal.state ≠ .normal) :
    ((s.faultRule .normal).port .console).holds .journalFault = true ∧ ((s.faultRule .normal).port .fleet).holds .journalFault = true := by
  have state := congrArg (fun t => t.journal.state) (faultRule_out s .normal)
  have told : s.faultRule .normal = State.notifyConsoleFleet { s with
      journal := { s.journal with state := (s.faultRule .normal).journal.state } } .journalFault := by
    rw [state] at entered ⊢
    unfold State.faultRule
    dsimp only at entered ⊢
    split <;> rename_i short
    · rw [if_pos ⟨rfl, by simp⟩]
    · rw [if_neg short] at entered
      rw [if_pos ⟨rfl, entered⟩]
  rw [told]
  exact ⟨add_self _ _, add_self _ _⟩

/-- The page retired and the rule on FAULT followed, the low mark worked out with them, before the record is filed again (R122, R123,
R125). -/
def State.retiredAt (s : State) (f : Filing) : State :=
  (({ s with journal := s.journal.retire f } : State).faultRule s.journal.state).updateLow

theorem verifyFail_eq {s : State} {f : Filing} (flying : s.journal.inFlight = some f) : s.verifyFail = (s.retiredAt f).fileOn := by
  unfold State.verifyFail
  rw [flying]
  rfl

/-- The journal's state once the page is retired and the rule on FAULT followed (R122, R123). -/
def State.stateRetired (s : State) (f : Filing) : JournalState :=
  if (s.journal.retire f).state = .normal ∧ (s.journal.retire f).free < s.reserve then .fault .reserve else (s.journal.retire f).state

theorem retiredAt_out (s : State) (f : Filing) : s.retiredAt f = { s with
    journal := { s.journal.retire f with state := s.stateRetired f, low := (s.retiredAt f).journal.low }
    ports := (s.retiredAt f).ports } := by
  have out : s.retiredAt f = _ := updateLow_only _
  rw [out, updateLow_journal, faultRule_out]
  rfl

theorem retiredAt_told {s : State} {f : Filing} (normal : s.journal.state = .normal) (entered : s.stateRetired f ≠ .normal) :
    ((s.retiredAt f).port .console).holds .journalFault = true ∧ ((s.retiredAt f).port .fleet).holds .journalFault = true := by
  have kept := (mild_updateLow (({ s with journal := s.journal.retire f } : State).faultRule s.journal.state)).p
  rw [normal] at kept
  obtain ⟨console, fleet⟩ := faultRule_told (s := { s with journal := s.journal.retire f }) (by
    rw [faultRule_out]
    exact entered)
  unfold State.retiredAt
  rw [normal]
  exact ⟨kept .console _ console, kept .fleet _ fleet⟩

/-- The retirement while the retired list has a place, and with eight pages there already (R122). -/
theorem stateRetired_eq (s : State) (f : Filing) :
    (8 ≤ s.journal.retired.length → s.stateRetired f = .fault .retiredList)
    ∧ (s.journal.retired.length < 8 → s.stateRetired f
        = if s.journal.state = .normal ∧ (s.journal.retire f).free < s.reserve then .fault .reserve else s.journal.state) := by
  unfold State.stateRetired
  refine ⟨fun full => ?_, fun room => ?_⟩
  · have closed : (s.journal.retire f).state = .fault .retiredList := if_neg (Nat.not_lt.2 full)
    rw [closed, if_neg (by simp)]
  · have stands : (s.journal.retire f).state = s.journal.state := if_pos room
    rw [stands]

/-- The rule on FAULT never closes writing (R123). -/
theorem stateRetired_open {s : State} {f : Filing} (room : s.journal.retired.length < 8) (opened : s.journal.state ≠ .fault .retiredList) :
    s.stateRetired f ≠ .fault .retiredList := by
  rw [(stateRetired_eq s f).2 room]
  split
  · simp
  · exact opened

/-! ### The writer's next page -/

/-- The search for a page tries the pages after `page` in turn round the circle, and ends at the first that is not retired or at its last
try (R118, R122). -/
theorem nextPage_search (retired : List Nat) (n page : Nat) : ∃ d, d ≤ n ∧ nextPage retired page n = (page + 1 + d) % 256
    ∧ (∀ e, e < d → (page + 1 + e) % 256 ∈ retired) ∧ (d < n → (page + 1 + d) % 256 ∉ retired) := by
  induction n generalizing page with
  | zero => exact ⟨0, le_rfl, rfl, fun e before => absurd before (Nat.not_lt_zero e), fun before => absurd before (lt_irrefl 0)⟩
  | succ n ih =>
    unfold nextPage
    have turn : (page + 1) % journalPages = (page + 1 + 0) % 256 := rfl
    split <;> rename_i first <;> rw [List.contains_iff_mem, turn] at first
    · obtain ⟨d, bound, found, passed, stopped⟩ := ih ((page + 1) % journalPages)
      have shifted : ∀ e, ((page + 1) % journalPages + 1 + e) % 256 = (page + 1 + (e + 1)) % 256 := by
        intro e
        rw [show journalPages = 256 from rfl]
        omega
      simp only [shifted] at found passed stopped
      refine ⟨d + 1, by omega, found, fun e before => ?_, fun before => stopped (by omega)⟩
      cases e with
      | zero => exact first
      | succ e => exact passed e (by omega)
    · exact ⟨0, Nat.zero_le _, turn, fun e before => absurd before (Nat.not_lt_zero e), fun _ => first⟩

/-- Pages in turn round the circle, all of them retired, are no more than the retired pages. -/
theorem retired_run_le {retired : List Nat} {page d : Nat} (short : d ≤ 256) (run : ∀ e, e < d → (page + 1 + e) % 256 ∈ retired) :
    d ≤ retired.length := by
  have distinct : ((List.range d).map (fun e => (page + 1 + e) % 256)).Nodup := by
    refine (List.nodup_map_iff_inj_on List.nodup_range).2 fun x hx y hy same => ?_
    rw [List.mem_range] at hx hy
    omega
  have inside : (List.range d).map (fun e => (page + 1 + e) % 256) ⊆ retired := by
    intro x hx
    obtain ⟨e, he, rfl⟩ := List.mem_map.1 hx
    exact run e (List.mem_range.1 he)
  have bound := (distinct.subperm inside).length_le
  rwa [List.length_map, List.length_range] at bound

theorem freshPage_first {retired : List Nat} (page : Nat) (few : retired.length ≤ 8) :
    ∃ d, d < 256 ∧ freshPage retired page = ⟨(page + 1 + d) % 256, 0⟩ ∧ (page + 1 + d) % 256 ∉ retired
      ∧ ∀ e, e < d → (page + 1 + e) % 256 ∈ retired := by
  obtain ⟨d, bound, found, passed, stopped⟩ := nextPage_search retired 255 page
  have early := retired_run_le (by omega) passed
  refine ⟨d, by omega, ?_, stopped (by omega), passed⟩
  unfold freshPage
  rw [found]

/-! ### The statement -/

/-- Settles O38: each verify by the journal it leaves to a filing that keeps its pages; the next page by the search for it. -/
theorem verifiesPassAndFail : Obligations.VerifiesPassAndFail := by
  refine ⟨fun f r rest s run idle flying queued below => ?_, fun f r rest s run idle flying queued => ?_,
    fun retired page few => freshPage_first page few⟩
  · obtain ⟨t, ht⟩ : ∃ t, t = (((s.verified f r rest).updateLow).complete r.body).fileOn := ⟨_, rfl⟩
    have out : s.verifyPass = t := ht ▸ verifyPass_eq flying queued below
    have reach : t.beyondFiling = s.beyondFiling := by
      rw [ht, fileOn_beyondFiling, complete_beyondFiling, updateLow_beyondFiling]
      rfl
    have pages := verified_pages s f r rest
    rw [← ht] at pages
    obtain ⟨-, -, -, -, -, -, -, -, -, -, -, -, -, partClear, -⟩ := kept_of_beyondFiling reach
    refine ⟨t, congrArg Host.Outcome.next (exec_verify _ run (by rw [flying]; rfl) out (partClear.trans idle)), ht, ?_, fun i other => ?_,
      ?_, ?_, ?_, ?_⟩ <;> rw [pages]
    · exact slotWrite_same _ _ _
    · exact slotWrite_other _ _ _ _ other
    all_goals rfl
  · obtain ⟨t, ht⟩ : ∃ t, t = (s.retiredAt f).fileOn := ⟨_, rfl⟩
    have out : s.verifyFail = t := ht ▸ verifyFail_eq flying
    have before := retiredAt_out s f
    have reach : t.beyondFiling = s.beyondFiling := by rw [← out, verifyFail_beyondFiling]
    obtain ⟨-, -, -, -, -, -, -, -, -, -, -, -, -, partClear, -⟩ := kept_of_beyondFiling reach
    have pages := fileOn_pages (s.retiredAt f)
    rw [← ht, before] at pages
    have state : t.journal.state = s.stateRetired f := by rw [pages]
    obtain ⟨closes, rule⟩ := stateRetired_eq s f
    refine ⟨t, congrArg Host.Outcome.next (exec_verify _ run (by rw [flying]; rfl) out (partClear.trans idle)), ?_, ?_, ?_, ?_,
      fun i other => ?_, fun full => ?_, fun room => ?_, fun normal entered => ?_, fun room opened free => ?_⟩
    · rw [pages]
      rfl
    · rw [pages]
      rfl
    · rw [pages]
      rfl
    · rw [pages]
      rfl
    · rw [pages]
      exact slotWrite_other _ _ _ _ other
    · rw [state, closes full]
    · rw [state, rule room]
    · rw [state] at entered
      obtain ⟨console, fleet⟩ := retiredAt_told normal entered
      rw [ht]
      exact ⟨beginFiling_told _ _ _ _ console, beginFiling_told _ _ _ _ fleet⟩
    · have queue : (s.retiredAt f).journal.queue = r :: rest := by
        rw [before]
        exact queued
      have begins := fileOn_begins (s := s.retiredAt f) (by rw [before]; rfl) (by rw [queue]; exact List.cons_ne_nil _ _)
        (by rw [before]; exact stateRetired_open room opened) (by rw [before]; exact free)
      rw [ht, begins]
      refine ⟨queue, ?_, ?_, ?_⟩ <;> rw [before]
      rfl

end Sys2Proof.Machine
end

section
/-! READ_JOURNAL: the records offered, their packing into frames and their lengths (R116, R126, R177), and the statement. -/

namespace Sys2Proof.Machine

/-! ### The records offered -/

/-- A record put in its place is an ordered insertion by number. -/
theorem insertBySeq_eq (x : Nat × JournalRecord) (xs : List (Nat × JournalRecord)) :
    insertBySeq x xs = xs.orderedInsert (fun x y => x.1 ≤ y.1) x := by
  induction xs with
  | nil => rfl
  | cons y rest ih => rw [insertBySeq, List.orderedInsert_cons, ih]

theorem offered_eq (j : Journal) :
    j.offered = (j.store.filterMap (unackedRecord j.acked)).insertionSort (fun x y => x.1 ≤ y.1) := by
  unfold Journal.offered List.insertionSort
  rw [funext fun x => funext (insertBySeq_eq x)]

/-- The records are offered in order of number (R126). -/
theorem offered_rise (j : Journal) : j.offered.Pairwise (fun x y => x.1 ≤ y.1) := by
  have total : Std.Total (fun x y : Nat × JournalRecord => x.1 ≤ y.1) := ⟨fun x y => le_total x.1 y.1⟩
  have trans : IsTrans (Nat × JournalRecord) (fun x y => x.1 ≤ y.1) := ⟨fun x y z => le_trans (a := x.1)⟩
  rw [offered_eq]
  exact List.pairwise_insertionSort _ _

theorem unackedRecord_some {acked n : Nat} {r : JournalRecord} {x : Nat × SlotContent} :
    unackedRecord acked x = some (n, r) ↔ x.2 = .whole n r ∧ acked < n := by
  obtain ⟨i, content⟩ := x
  cases content with
  | damaged => simp [unackedRecord]
  | whole seq body =>
    simp only [unackedRecord, SlotContent.whole.injEq]
    constructor
    · intro given
      split at given <;> rename_i beyond
      · cases given
        exact ⟨⟨rfl, rfl⟩, beyond⟩
      · cases given
    · rintro ⟨⟨rfl, rfl⟩, beyond⟩
      exact if_pos beyond

/-- Those offered are the whole records beyond the acknowledged number (R117, R126). -/
theorem mem_offered {j : Journal} {n : Nat} {r : JournalRecord} :
    (n, r) ∈ j.offered ↔ (∃ i, (i, SlotContent.whole n r) ∈ j.store) ∧ j.acked < n := by
  rw [offered_eq, List.mem_insertionSort, List.mem_filterMap]
  constructor
  · rintro ⟨⟨i, content⟩, held, given⟩
    obtain ⟨rfl, beyond⟩ := unackedRecord_some.1 given
    exact ⟨⟨i, held⟩, beyond⟩
  · rintro ⟨⟨i, held⟩, beyond⟩
    exact ⟨_, held, unackedRecord_some.2 ⟨rfl, beyond⟩⟩

theorem readJournalOwner_offers {count : Byte} (s : State) (one : 1 ≤ count.toNat) (most : count.toNat ≤ 64) :
    readJournalOwner count s = (s, ⟨false, journalPayloads s.journalStatus (((s.journal.offered.take count.toNat).map
      (fun x => x.2.bytes x.1)).length + 1) ((s.journal.offered.take count.toNat).map (fun x => x.2.bytes x.1))⟩) :=
  checked_ok (by simp [firstRefusal, one, most])

theorem readJournalOwner_range {count : Byte} (s : State) (outside : count.toNat = 0 ∨ 64 < count.toNat) :
    readJournalOwner count s = (s, .refuse .range) :=
  checked_no (by
    have fails : ¬(1 ≤ count.toNat ∧ count.toNat ≤ 64) := by omega
    simp [firstRefusal, fails])

/-! ### Frames -/

/-- A frame takes the records from the first on, and stops at its number or at a record that does not fit (R177). -/
theorem fillFrame_out {room n : Nat} {rs taken left : List (List Byte)} (filled : fillFrame room n rs = (taken, left)) :
    taken ++ left = rs ∧ taken.flatten.length ≤ room ∧ taken.length ≤ n
      ∧ ∀ r rest, left = r :: rest → taken.length = n ∨ room < taken.flatten.length + r.length := by
  induction n generalizing room rs taken left with
  | zero =>
    obtain ⟨rfl, rfl⟩ := Prod.mk.inj filled
    exact ⟨rfl, Nat.zero_le _, le_rfl, fun _ _ _ => .inl rfl⟩
  | succ n ih =>
    cases rs with
    | nil =>
      obtain ⟨rfl, rfl⟩ := Prod.mk.inj filled
      exact ⟨rfl, Nat.zero_le _, Nat.zero_le _, nofun⟩
    | cons x rs =>
      unfold fillFrame at filled
      split at filled <;> rename_i fits
      · obtain ⟨more, rest, filledRest⟩ : ∃ more rest, fillFrame (room - x.length) n rs = (more, rest) := ⟨_, _, rfl⟩
        rw [filledRest] at filled
        obtain ⟨rfl, rfl⟩ := Prod.mk.inj filled
        obtain ⟨all, within, few, stops⟩ := ih filledRest
        refine ⟨congrArg (x :: ·) all, ?_, Nat.succ_le_succ few, fun r tail is => ?_⟩
        · rw [List.flatten_cons, List.length_append]
          omega
        · rw [List.flatten_cons, List.length_append, List.length_cons]
          have := stops r tail is
          omega
      · obtain ⟨rfl, rfl⟩ := Prod.mk.inj filled
        refine ⟨rfl, Nat.zero_le _, Nat.zero_le _, fun r tail is => .inr ?_⟩
        obtain ⟨rfl, rfl⟩ := List.cons.inj is
        simpa using fits

/-- Records laid out in the groups of a reply's frames: whole and in order, at most four in each and none of the first frames empty, as much
as a frame has room for, and no frame before the next record would have passed its four or its room (R177). -/
structure Packing (rs : List (List Byte)) (groups : List (List (List Byte))) (last : List (List Byte)) : Prop where
  all : (groups ++ [last]).flatten = rs
  few : ∀ g ∈ groups, 1 ≤ g.length ∧ g.length ≤ 4
  fits : ∀ g ∈ groups, g.flatten.length ≤ frameRoom
  lastFew : last.length ≤ 4
  lastFits : last.flatten.length ≤ lastFrameRoom
  full : ∀ before g r rest after, groups ++ [last] = before ++ g :: (r :: rest) :: after →
    g.length = 4 ∨ frameRoom < g.flatten.length + r.length

/-- What fits in the last frame is one frame. -/
theorem Packing.single {rs : List (List Byte)} (few : rs.length ≤ 4) (fits : rs.flatten.length ≤ lastFrameRoom) : Packing rs [] rs where
  all := List.append_nil rs
  few := nofun
  fits := nofun
  lastFew := few
  lastFits := fits
  full before g r rest after is := by
    have lengths := congrArg List.length is
    simp only [List.length_append, List.length_cons, List.length_nil] at lengths
    omega

/-- A frame filled before the frames of the records it leaves. -/
theorem Packing.cons {rs taken left last : List (List Byte)} {groups : List (List (List Byte))}
    (filled : fillFrame frameRoom 4 rs = (taken, left)) (taking : 1 ≤ taken.length) (rest : Packing left groups last) :
    Packing rs (taken :: groups) last := by
  obtain ⟨all, within, few, stops⟩ := fillFrame_out filled
  refine ⟨?_, ?_, ?_, rest.lastFew, rest.lastFits, fun before g r tail after is => ?_⟩
  · rw [List.cons_append, List.flatten_cons, rest.all, all]
  · exact List.forall_mem_cons.2 ⟨⟨taking, few⟩, rest.few⟩
  · exact List.forall_mem_cons.2 ⟨within, rest.fits⟩
  · cases before with
    | nil =>
      obtain ⟨rfl, next⟩ := List.cons.inj is
      have leads : left = r :: (tail ++ after.flatten) := by
        rw [← rest.all]
        exact congrArg List.flatten next
      exact stops _ _ leads
    | cons b before => exact rest.full before g r tail after (List.cons.inj is).2

/-- Enough frames are allowed for when each record fits in the last: every frame but the last takes a record (R177). -/
theorem journalPayloads_packed (status : List Byte) {n : Nat} {rs : List (List Byte)} (enough : rs.length < n)
    (short : ∀ r ∈ rs, r.length ≤ lastFrameRoom) : ∃ groups last, Packing rs groups last
      ∧ journalPayloads status n rs = groups.map (fun g => journalPayload g []) ++ [journalPayload last status] := by
  induction n generalizing rs with
  | zero => exact absurd enough (Nat.not_lt_zero _)
  | succ n ih =>
    obtain ⟨taken, left, filled⟩ : ∃ taken left, fillFrame frameRoom 4 rs = (taken, left) := ⟨_, _, rfl⟩
    obtain ⟨all, within, few, stops⟩ := fillFrame_out filled
    unfold journalPayloads
    rw [filled]
    dsimp only
    split <;> rename_i ends
    · rw [Bool.and_eq_true, List.isEmpty_iff, decide_eq_true_eq] at ends
      obtain ⟨rfl, fits⟩ := ends
      rw [List.append_nil] at all
      subst all
      exact ⟨[], taken, .single few fits, rfl⟩
    · have taking : 1 ≤ taken.length := by
        rw [Nat.one_le_iff_ne_zero, Ne, List.length_eq_zero_iff]
        rintro rfl
        cases left with
        | nil => exact ends rfl
        | cons r tail =>
          have fits := short r (all ▸ List.mem_cons_self)
          have stop := stops r tail rfl
          simp only [frameRoom, lastFrameRoom, List.length_nil, List.flatten_nil] at fits stop
          omega
      have fewer : left.length < n := by
        rw [← all, List.length_append] at enough
        omega
      obtain ⟨groups, last, packing, out⟩ := ih fewer fun r mem => short r (all ▸ List.mem_append_right _ mem)
      exact ⟨taken :: groups, last, packing.cons filled taking, by rw [out]; rfl⟩

/-- The bytes of a frame: result code, record count, records and, in the last, the status (R177). -/
theorem journalPayload_eq (records : List (List Byte)) (tail : List Byte) :
    journalPayload records tail = 0 :: BitVec.ofNat 8 records.length :: (records.flatten ++ tail) := rfl

/-- No frame passes 240 bytes, the status of 23 with the last (R126, R177). -/
theorem Packing.length_le {rs last : List (List Byte)} {groups : List (List (List Byte))} {status : List Byte} (h : Packing rs groups last)
    (size : status.length = 23) :
    ∀ x ∈ groups.map (fun g => journalPayload g []) ++ [journalPayload last status], x.length ≤ 240 := by
  intro x mem
  have lastFits := h.lastFits
  rw [List.mem_append, List.mem_map, List.mem_singleton] at mem
  rcases mem with ⟨g, mem, rfl⟩ | rfl
  · have fits := h.fits g mem
    simp only [journalPayload_eq, frameRoom, List.length_cons, List.append_nil] at fits ⊢
    omega
  · simp [journalPayload_eq, lastFrameRoom, size] at lastFits ⊢
    omega

theorem replyFrames_cons (kind tag : Byte) (fault : Bool) (x : List Byte) {rest : List (List Byte)} (more : rest ≠ []) :
    replyFrames kind tag fault (x :: rest) = ⟨kind, tag, flagsReply, x⟩ :: replyFrames kind tag fault rest := by
  cases rest with
  | nil => exact absurd rfl more
  | cons y rest => rfl

/-- The last frame alone carries FINAL (R177). -/
theorem replyFrames_final (kind tag : Byte) (payloads : List (List Byte)) (last : List Byte) :
    replyFrames kind tag false (payloads ++ [last]) = payloads.map (fun x => ⟨kind, tag, 1, x⟩) ++ [⟨kind, tag, 3, last⟩] := by
  induction payloads with
  | nil => rfl
  | cons x rest ih =>
    rw [List.cons_append, replyFrames_cons _ _ _ _ (by simp), ih]
    rfl

/-! ### The lengths of records -/

@[simp] theorem be1_length (n : Nat) : (be1 n).length = 1 := rfl
@[simp] theorem be2_length (n : Nat) : (be2 n).length = 2 := rfl
@[simp] theorem be4_length (n : Nat) : (be4 n).length = 4 := rfl
@[simp] theorem clock_bytes_length (t : ClockTime) : t.bytes.length = 8 := rfl

@[simp] theorem beBytes_length (n x : Nat) : (beBytes n x).length = n := by
  induction n generalizing x with
  | zero => rfl
  | succ n ih => rw [beBytes, List.length_append, ih, List.length_singleton]

@[simp] theorem bookingRef_length (r : BitVec 64) : (bookingRefBytes r).length = 8 := beBytes_length _ _
@[simp] theorem paymentRef_length (r : BitVec 96) : (paymentRefBytes r).length = 12 := beBytes_length _ _

/-- Items of one length, laid out one after another. -/
theorem flatMap_length {α : Type} {f : α → List Byte} {c : Nat} (each : ∀ x, (f x).length = c) (xs : List α) :
    (xs.flatMap f).length = c * xs.length := by
  simp [List.length_flatMap, each, Nat.mul_comm]

theorem payment_recordBytes_length (e : Payment) : e.recordBytes.length = 24 := by
  simp [Payment.recordBytes]

theorem hireRecord_length (r : HireRecord) : r.bytes.length = 49 + 2 * r.extras.length + 24 * r.payments.length := by
  have extras : (r.extras.flatMap (fun x => be1 x.1 ++ be1 x.2)).length = 2 * r.extras.length :=
    flatMap_length (f := fun x : Nat × Nat => be1 x.1 ++ be1 x.2) (fun _ => rfl) _
  have payments : (r.payments.flatMap Payment.recordBytes).length = 24 * r.payments.length :=
    flatMap_length payment_recordBytes_length _
  simp only [HireRecord.bytes, List.length_append, extras, payments, be1_length, be2_length, be4_length, clock_bytes_length,
    bookingRef_length, List.length_singleton]
  omega

theorem shiftBody_length {k : List Counter} (fifteen : k.length = 15) (d : Nat) (o c : ClockTime) :
    (RecordBody.shift d o c k).bytes.length = 80 := by
  have counters : (k.flatMap (fun c => be4 c.value)).length = 4 * k.length :=
    flatMap_length (f := fun c : Counter => be4 c.value) (fun _ => rfl) _
  simp [RecordBody.bytes, counters, fifteen]

/-- Sixteen common bytes before a record's own (10_ports, Journal record). -/
theorem record_length (n number : Nat) (time : ClockTime) (b : RecordBody) :
    (JournalRecord.bytes n ⟨number, time, b⟩).length = 16 + b.bytes.length := by
  simp only [JournalRecord.bytes, List.length_append, be1_length, be2_length, be4_length, clock_bytes_length, List.length_singleton]

theorem record_lengthByte (n number : Nat) (time : ClockTime) (b : RecordBody) :
    (JournalRecord.bytes n ⟨number, time, b⟩).getD 5 0 = BitVec.ofNat 8 (16 + b.bytes.length) := rfl

/-- Settles O39: READ_JOURNAL by its owner, the order by the ordered insertion it is, the frames by their packing, and each record's length
by its items. -/
theorem recordsAreOfferedInTheirLayout : Obligations.RecordsAreOfferedInTheirLayout := by
  refine ⟨⟨fun tag count s ready => ⟨fun one most => ⟨_, rfl, ?_⟩, fun outside => ?_⟩,
    fun j => ⟨offered_rise j, fun n r => mem_offered⟩, fun status rs size short => ?_, replyFrames_final⟩,
    fun n number time => ⟨fun r => ?_, fun d o c k fifteen => ?_, fun sl h m a t ref => ?_, fun ids => ?_, ?_, fun b => ?_⟩⟩
  · have answered := request_ready (tag := tag) (owner := readJournalOwner count) ready (k := .readJournal) rfl
    rw [readJournalOwner_offers s one most] at answered
    exact answered
  · exact request_refused ready rfl (readJournalOwner_range s outside)
  · obtain ⟨groups, last, packing, out⟩ := journalPayloads_packed status (Nat.lt_succ_self rs.length) short
    rw [out]
    refine ⟨packing.length_le size, groups, last, ?_, ?_, packing.few, packing.lastFew, fun before g r rest after is => ?_⟩
    · rw [← packing.all, List.flatten_append, List.flatten_singleton]
    · simp [journalPayload_eq]
    · have full := packing.full before g r rest after is
      unfold frameRoom at full
      omega
  · rw [record_length, RecordBody.bytes, hireRecord_length]
    omega
  · rw [record_length, shiftBody_length fifteen]
  · rw [record_length]
    simp [RecordBody.bytes]
  · rw [record_length]
    rfl
  · rw [record_length]
    rfl
  · rw [record_lengthByte, record_length]

end Sys2Proof.Machine
end

section
/-! ACK_JOURNAL, READ_UNFILED, ACK_UNFILED and the low mark (R125, R127, R128), and their statement. -/

namespace Sys2Proof.Machine

/-! ### The low mark -/

/-- The low mark set from clear is told to the Console and Fleet ports; any other event tells no port (R125). -/
theorem updateLow_ports (s : State) : s.updateLow.ports = if s.journal.free < s.tariffs.config.lowWater ∧ s.journal.low = false
    then { s.ports with console := s.ports.console.add .journalLow, fleet := s.ports.fleet.add .journalLow } else s.ports := by
  unfold State.updateLow
  dsimp only
  by_cases sets : s.journal.free < s.tariffs.config.lowWater ∧ s.journal.low = false
  · rw [if_pos sets, if_pos (by simp [sets])]
    rfl
  · rw [if_neg sets, if_neg (by simpa using sets)]

/-! ### What an acknowledgement frees -/

/-- The journal with records acknowledged up to a number (R127). -/
def Journal.ackedTo (j : Journal) (q : Nat) : Journal := { j with acked := q }

/-- A record stays unacknowledged only beyond the number, which was beyond the old one. -/
theorem unacked_mono {acked q : Nat} (beyond : acked < q) {c : SlotContent} (still : c.unacked q = true) : c.unacked acked = true := by
  cases c with
  | damaged => exact still
  | whole n r =>
    simp only [SlotContent.unacked, decide_eq_true_eq] at still ⊢
    omega

/-- The slots an acknowledgement frees: those in pages not retired whose record it takes in (R127). -/
def Journal.freedBy (j : Journal) (q : Nat) : JournalStore :=
  j.store.filter (fun x => !(j.retired.contains (x.1 / 16)) && x.2.unacked j.acked && !(x.2.unacked q))

/-- The unacknowledged records in pages not retired are those that stay so and those that are freed. -/
theorem unackedLive_ackedTo {j : Journal} {q : Nat} (beyond : j.acked < q) :
    j.unackedLive = (j.ackedTo q).unackedLive + (j.freedBy q).length := by
  unfold Journal.unackedLive Journal.freedBy unackedSlots Journal.ackedTo
  simp only [List.filter_filter, ← List.countP_eq_length_filter]
  induction j.store with
  | nil => rfl
  | cons x rest ih =>
    simp only [List.countP_cons]
    rw [ih]
    cases live : j.retired.contains (x.1 / 16) with
    | true => simp
    | false =>
      cases still : x.2.unacked q with
      | true =>
        simp [unacked_mono beyond still]
        omega
      | false =>
        simp
        omega

/-- An acknowledgement gives the journal the slots it frees (R118, R127). -/
theorem free_ackedTo {j : Journal} {q : Nat} (beyond : j.acked < q) (opened : j.writingOpen = true) :
    (j.ackedTo q).free = j.free + (j.freedBy q).length := by
  have live := unackedLive_ackedTo beyond
  have sameOpen : (j.ackedTo q).writingOpen = j.writingOpen := rfl
  have sameQueue : (j.ackedTo q).queuedOthers = j.queuedOthers := rfl
  have sameRetired : (j.ackedTo q).retired = j.retired := rfl
  unfold Journal.free
  rw [sameOpen, sameQueue, sameRetired, if_pos opened, if_pos opened]
  omega

/-- A slot whose record is acknowledged may be programmed again, unless its page is retired (R118, R127). -/
theorem slotFree_ackedTo {j : Journal} {q n : Nat} {pl : Place} {r : JournalRecord} (held : slotRead j.store pl.index = some (.whole n r))
    (within : n ≤ q) (live : pl.page ∉ j.retired) : (j.ackedTo q).slotFree pl = true := by
  unfold Journal.slotFree Journal.ackedTo
  simp [held, live, SlotContent.unacked, within]

/-! ### The requests -/

theorem ackJournalOwner_range {q : Word} {s : State} (beyond : s.journal.nextSeq - 1 < q.toNat) :
    ackJournalOwner q s = (s, .refuse .range) :=
  checked_no (by simp [firstRefusal, Journal.newest, Nat.not_le.2 beyond])

theorem ackJournalOwner_within {q : Word} {s : State} (within : q.toNat ≤ s.journal.nextSeq - 1) : ackJournalOwner q s =
    if q.toNat ≤ s.journal.acked then done s []
    else done { s with journal := s.journal.ackedTo q.toNat }.updateLow
      (be2 { s with journal := s.journal.ackedTo q.toNat }.updateLow.journal.freeShown) :=
  checked_ok (by simp [firstRefusal, Journal.newest, within])

theorem ackUnfiledOwner_done {count : Byte} {s : State} (one : 1 ≤ count.toNat) (four : count.toNat ≤ 4)
    (held : count.toNat ≤ s.journal.unfiled.length) :
    ackUnfiledOwner count s = done { s with journal := { s.journal with unfiled := s.journal.unfiled.drop count.toNat } } [] :=
  checked_ok (by simp [firstRefusal, one, four, held])

theorem ackUnfiledOwner_range {count : Byte} {s : State}
    (outside : count.toNat = 0 ∨ 4 < count.toNat ∨ s.journal.unfiled.length < count.toNat) :
    ackUnfiledOwner count s = (s, .refuse .range) :=
  checked_no (by
    have fails : ¬(1 ≤ count.toNat ∧ count.toNat ≤ 4 ∧ count.toNat ≤ s.journal.unfiled.length) := by omega
    simp [firstRefusal, fails])

theorem readUnfiledOwner_out (s : State) : readUnfiledOwner s = (s, ⟨false,
    if s.journal.unfiled = [] then [[0, 0]] else s.journal.unfiled.map (fun r => 0 :: 1 :: r.bytes 0)⟩) := by
  unfold readUnfiledOwner
  cases s.journal.unfiled with
  | nil => rfl
  | cons r rest => rfl

/-- READ_UNFILED is answered with its owner's frames, and the state stands (R128). -/
theorem exec_readUnfiled {s : State} (tag : Byte) (ready : Ready s .fleet) : exec (.readUnfiled .fleet tag) s
    = .next (s.answer .fleet Kind.readUnfiled.byte tag (readUnfiledOwner s).2) := by
  have answered := request_ready (tag := tag) (owner := readUnfiledOwner) ready (k := .readUnfiled) rfl
  have stands : (readUnfiledOwner s).1 = s := by rw [readUnfiledOwner_out]
  rw [stands] at answered
  exact answered

/-- Settles O40: each request by its owner, the acknowledgement by the journal acknowledged to its number, the low mark by its fields. -/
theorem acknowledgementsFreeRecords : Obligations.AcknowledgementsFreeRecords := by
  refine ⟨fun tag q s ready => ⟨fun beyond => ?_, fun within old => ?_, fun within taken => ?_⟩,
    fun s => ⟨updateLow_journal s, updateLow_ports s, updateLow_only s⟩,
    fun tag count s ready => ⟨fun empty => ?_, fun present => ?_, fun one four held => ?_, fun outside => ?_⟩⟩
  · exact request_refused ready rfl (ackJournalOwner_range beyond)
  · exact request_done ready rfl ((ackJournalOwner_within within).trans (if_pos old))
  · obtain ⟨t, ht⟩ : ∃ t, t = ({ s with journal := s.journal.ackedTo q.toNat } : State).updateLow := ⟨_, rfl⟩
    have journal : t.journal = { s.journal.ackedTo q.toNat with low := t.journal.low } := by
      rw [ht, updateLow_journal]
    have work : ackJournalOwner q s = done t (be2 t.journal.freeShown) := by
      rw [ackJournalOwner_within within, if_neg (Nat.not_le.2 taken), ht]
    refine ⟨t, _, ht, request_done ready rfl work, ?_, ?_, fun pl n r held covered live => ?_, rfl, fun opened => ?_⟩
    · rw [journal]
      rfl
    · rintro ⟨n, r⟩ mem
      obtain ⟨-, beyond⟩ := mem_offered.1 mem
      rw [journal] at beyond
      exact beyond
    · rw [journal]
      exact slotFree_ackedTo held covered live
    · rw [journal]
      exact free_ackedTo taken opened
  · rw [exec_readUnfiled tag ready, readUnfiledOwner_out, if_pos empty]
  · rw [exec_readUnfiled tag ready, readUnfiledOwner_out, if_neg present]
  · exact request_done ready rfl (ackUnfiledOwner_done one four held)
  · exact request_refused ready rfl (ackUnfiledOwner_range outside)

end Sys2Proof.Machine
end

section
/-! Part clear: its acceptance, its completion, its course at a tick and the journal recovery inside it (R130, R173, R192, R193), and the
statement. -/

namespace Sys2Proof.Machine

/-! ### CLEAR_PART -/

/-- The three conditions of the recovery (R130). -/
theorem recoveryDue_iff (j : Journal) :
    j.recoveryDue = true ↔ j.state ≠ JournalState.normal ∧ j.acked = j.nextSeq - 1 ∧ j.unfiled = [] := by
  simp [Journal.recoveryDue, Journal.inFault, Journal.newest, and_assoc]

theorem storeIdle_iff (s : State) :
    s.storeBusy = false ↔ s.tariffs.activation = none ∧ s.tariffs.configWrite = none ∧ s.partClear = .idle := by
  simp [State.storeBusy, and_assoc]

theorem clearPartOwner_accepted {s : State} (idle : s.storeBusy = false) (closed : s.shift.state = .closed)
    (quiet : s.alarm.state = .quiet) : clearPartOwner s =
    ({ s.closeChain with partClear := if s.journal.recoveryDue then .waiting else .plain }, .of .accepted []) :=
  checked_ok (by simp [firstRefusal, idle, closed, quiet])

theorem clearPartOwner_storeBusy {s : State} (busy : s.storeBusy = true) : clearPartOwner s = (s, .refuse .storeBusy) :=
  checked_no (by simp [firstRefusal, busy])

theorem clearPartOwner_shiftState {s : State} (idle : s.storeBusy = false) (opened : s.shift.state ≠ .closed) :
    clearPartOwner s = (s, .refuse .shiftState) :=
  checked_no (by simp [firstRefusal, idle, opened])

theorem clearPartOwner_notPermitted {s : State} (idle : s.storeBusy = false) (closed : s.shift.state = .closed)
    (active : s.alarm.state = .active) : clearPartOwner s = (s, .refuse .notPermitted) :=
  checked_no (by simp [firstRefusal, idle, closed, active])

/-! ### The completion -/

/-- What the completion reaches; hires, shift, journal, alarm, clock, power and lines are kept (R193). -/
theorem completePartClear_out (s : State) : s.completePartClear = { s with
    partClear := .idle
    sign := s.completePartClear.sign
    intercom := s.intercomPartCleared
    tariffs := { s.tariffs with staging := s.tariffs.active, chain := Chain.cleared }
    indicators := 0
    ports := s.completePartClear.ports } := rfl

/-- The completion is told to the Fleet port (R193). -/
theorem completePartClear_told (s : State) : (s.completePartClear.port .fleet).holds .clearDone = true := add_self _ _

/-- The sign's power-on values with the override AUTO, aimed at the target derived afresh (R132, R193). -/
def State.signCleared (s : State) : Sign :=
  (Sign.powerOn .auto s.pins.night).aim (signTarget s.shift.state .auto s.shift.pooling s.hires)
    (if s.pins.night then s.tariffs.config.nightLevel else 15)

/-- With the alarm QUIET no flash begins (R139, R193). -/
theorem completePartClear_sign {s : State} (quiet : s.alarm.state = .quiet) : s.completePartClear.sign = s.signCleared := by
  have still : ¬s.alarm.state = AlarmState.active := by simp [quiet]
  exact if_neg still

theorem signCleared_lamps (s : State) (i : LampId) :
    (s.signCleared.lamps.get i).level = 0 ∧ (s.signCleared.lamps.get i).fault = false ∧ (s.signCleared.lamps.get i).misses = 0 := by
  cases i <;> exact ⟨rfl, rfl, rfl⟩

/-- With the shift CLOSED no lamp is called for (R133, R134). -/
theorem signCleared_closed {s : State} (closed : s.shift.state = .closed) :
    s.signCleared.target = ⟨none, false⟩ ∧ ∀ i, (s.signCleared.lamps.get i).goal = 0 := by
  unfold State.signCleared
  rw [closed]
  exact ⟨rfl, fun i => by cases i <;> rfl⟩

/-- The intercom at its power-on values, the lines as the state holds them (R145, R193). -/
theorem intercomPartCleared_quiet {s : State} (quiet : s.alarm.state = .quiet) :
    s.intercomPartCleared.monitor = .off ∧ s.intercomPartCleared.mode = .off ∧ s.intercomPartCleared.held = s.pins.talk := by
  refine ⟨?_, rfl, rfl⟩
  have still : ¬s.alarm.state = AlarmState.active := by simp [quiet]
  exact if_neg still

/-- A port's notices, masks and snapshot at their power-on values, with CLEAR_DONE on the Fleet port alone (R173, R193). -/
theorem completePartClear_port {s : State} (quiet : s.alarm.state = .quiet) (p : PortId) : s.completePartClear.port p = { s.port p with
    notices := if p = .fleet then NoticeKind.clearDone.mask else 0
    enable := deliveredMask p
    stageMask := defaultStageMask p
    snapshot := none } := by
  have still : (s.alarm.state == AlarmState.active) = false := by simp [quiet]
  have out : s.completePartClear.ports = (s.ports.partCleared false).put .fleet ((s.ports.fleet.partCleared .fleet false).add .clearDone) := by
    rw [← still]
    rfl
  unfold State.port
  rw [out]
  cases p with
  | console => simp [Ports.partCleared, Ports.put, Ports.get, Port.partCleared]
  | payment => simp [Ports.partCleared, Ports.put, Ports.get, Port.partCleared]
  | fleet => simp [Ports.put, Ports.get, Port.partCleared, Port.add]

/-! ### Part clear goes on -/

/-- A tick with the alarm line released raises no alarm (R166, R167). -/
theorem preTick_quiet {l : Lines} {s : State} (released : l.alarm = false) : (preTick l s).alarm.state = s.alarm.state := by
  obtain ⟨a, ha⟩ : ∃ a : State, a = State.signTick { s with pins := l, timeBase := s.nextCount } s.fareNext := ⟨_, rfl⟩
  obtain ⟨signOnly, -⟩ := signTick_out { s with pins := l, timeBase := s.nextCount } s.fareNext
  obtain ⟨talkOnly, -⟩ := intercomTick_out a
  rw [← ha] at signOnly
  have alarm : a.intercomTick.alarm = s.alarm := by
    rw [talkOnly, signOnly]
  have line : a.intercomTick.pins.alarm = false := by
    rw [talkOnly, signOnly]
    exact released
  have pre : preTick l s = a.intercomTick.alarmTick := by
    rw [ha]
    rfl
  have untaken : a.intercomTick.alarm.pressTaken false = false := rfl
  rw [pre, ← alarm]
  unfold State.alarmTick
  rw [line, untaken]
  rfl

/-- With the queue empty a plain Part clear completes, and a waiting one whose conditions no longer hold (R130, R192). -/
theorem partClearOn_completes {s : State} (emptied : s.journal.queue = [])
    (goes : s.partClear = .plain ∨ s.partClear = .waiting ∧ s.journal.recoveryDue = false) : s.partClearOn = s.completePartClear := by
  unfold State.partClearOn
  rw [emptied, if_pos List.isEmpty_nil]
  rcases goes with plain | ⟨waiting, due⟩
  · rw [plain]
  · rw [waiting, due]
    rfl

/-- With the queue empty the recovery of a waiting Part clear begins while its conditions hold (R130). -/
theorem partClearOn_recovers {s : State} (emptied : s.journal.queue = []) (waiting : s.partClear = .waiting)
    (due : s.journal.recoveryDue = true) : s.partClearOn = { s with partClear := .recovering } := by
  unfold State.partClearOn
  rw [emptied, if_pos List.isEmpty_nil, waiting, due]
  rfl

theorem clearCompletes_of {s : State} (emptied : s.journal.queue = [])
    (goes : s.partClear = .plain ∨ s.partClear = .waiting ∧ s.journal.recoveryDue = false) : s.clearCompletes = true := by
  unfold State.clearCompletes
  rcases goes with plain | ⟨waiting, due⟩
  · simp [emptied, plain]
  · simp [emptied, waiting, due]

/-- A tick that is no fare tick completes it once the sign, the intercom and the alarm have done theirs (R192). -/
theorem tick_completes {l : Lines} {s : State} (noFare : s.fareNext = false) (emptied : s.journal.queue = [])
    (goes : s.partClear = .plain ∨ s.partClear = .waiting ∧ s.journal.recoveryDue = false) :
    s.tick l = (preTick l s).completePartClear := by
  have fields : (preTick l s).journal = s.journal ∧ (preTick l s).partClear = s.partClear := by
    rw [pre_e]
    exact ⟨rfl, rfl⟩
  obtain ⟨journal, partClear⟩ := fields
  rw [tick_eq, if_neg (by simp [noFare])]
  refine partClearOn_completes (by rw [journal]; exact emptied) ?_
  rw [journal, partClear]
  exact goes

/-! ### The recovery's end -/

/-- The journal recovered, before Part clear completes (R130). -/
theorem recoveryEnd_out {s : State} (failed : List Nat) (recovering : s.partClear = .recovering) :
    ∃ w : State, s.recoveryEnd failed = w.completePartClear
      ∧ w.journal = { s.journal.recovered failed with low := w.journal.low } := by
  refine ⟨({ s with journal := s.journal.recovered failed } : State).updateLow, if_pos recovering, ?_⟩
  rw [updateLow_journal]

/-- Every slot of the pages that did not fail is free again (R118, R130). -/
theorem recovered_free {j : Journal} {failed : List Nat} (few : failed.length ≤ 8) (emptied : j.queue = []) :
    (j.recovered failed).free = (16 * (256 - failed.length) : Nat) := by
  have opened : (j.recovered failed).state = .normal := if_neg (Nat.not_lt.2 few)
  have nothing : (j.recovered failed).unackedLive = 0 := rfl
  have others : (j.recovered failed).queuedOthers = 0 := by
    unfold Journal.queuedOthers
    rw [show (j.recovered failed).queue = [] from emptied]
    rfl
  have retired : (j.recovered failed).retired.length = failed.length :=
    (List.length_take (l := failed)).trans (Nat.min_eq_right few)
  unfold Journal.free
  rw [if_pos ((writingOpen_iff _).2 (by rw [opened]; simp)), nothing, others, retired]
  simp [journalPages]

/-- Settles O51: CLEAR_PART by its owner, the completion by what it reaches, the tick and the recovery by the state they complete. -/
theorem partClearRunsItsCourse : Obligations.PartClearRunsItsCourse := by
  refine ⟨fun tag s ready => ⟨fun activation config idle closed quiet => ?_, fun busy => ?_,
      fun activation config idle opened => ?_, fun activation config idle closed active => ?_⟩,
    fun s quiet => ⟨_, rfl, ?_⟩,
    fun s run => ⟨fun l emptied noFare quiet released closed goes => ?_,
      fun waiting emptied => ⟨fun due => ?_, fun due => ?_⟩, fun failed recovering => ?_⟩⟩
  · have work := clearPartOwner_accepted ((storeIdle_iff s).2 ⟨activation, config, idle⟩) closed quiet
    simp only [recoveryDue_iff] at work
    exact request_answers ready rfl work
  · exact request_refused ready rfl (clearPartOwner_storeBusy ((storeBusy_iff s).2 busy))
  · exact request_refused ready rfl (clearPartOwner_shiftState ((storeIdle_iff s).2 ⟨activation, config, idle⟩) opened)
  · exact request_refused ready rfl (clearPartOwner_notPermitted ((storeIdle_iff s).2 ⟨activation, config, idle⟩) closed active)
  · obtain ⟨monitor, mode, held⟩ := intercomPartCleared_quiet quiet
    rw [completePartClear_sign quiet]
    refine ⟨rfl, rfl, rfl, rfl, signCleared_lamps s, signCleared_closed, mode, rfl, rfl, rfl, monitor, held, ?_, rfl, rfl,
      completePartClear_port quiet, ?_⟩
    · rintro x (rfl | rfl) <;> rfl
    · rw [← completePartClear_sign quiet]
      exact completePartClear_out s
  · obtain ⟨x, hx⟩ : ∃ x, x = preTick l s := ⟨_, rfl⟩
    have still : x.alarm.state = .quiet := by rw [hx, preTick_quiet released, quiet]
    have kept : x.tariffs = s.tariffs ∧ x.journal = s.journal ∧ x.shift = s.shift ∧ x.hires = s.hires := by
      rw [hx, pre_e]
      exact ⟨rfl, rfl, rfl, rfl⟩
    obtain ⟨tariffs, journal, shift, hires⟩ := kept
    have active : x.tariffs.active = s.tariffs.active := congrArg TariffStore.active tariffs
    have ticks : tickWith State.clearCompletes l s = x.completePartClear := by
      rw [mk_tickWith run (clearCompletes_of emptied goes), tick_completes noFare emptied goes, hx]
    refine ⟨_, congrArg Host.Outcome.next ticks, rfl, rfl, active, active, journal, shift, hires, fun i => ?_, rfl, ?_, ?_⟩
    · rw [completePartClear_sign still]
      exact (signCleared_lamps x i).1
    · rw [completePartClear_port still]
      rfl
    · rw [completePartClear_port still]
      rfl
  · refine congrArg Host.Outcome.next ((whenRunning_eq run _).trans ((if_pos waiting).trans ?_))
    exact partClearOn_recovers emptied waiting due
  · refine congrArg Host.Outcome.next ((whenRunning_eq run _).trans ((if_pos waiting).trans ?_))
    exact partClearOn_completes emptied (.inr ⟨waiting, due⟩)
  · obtain ⟨w, out, recovered⟩ := recoveryEnd_out failed recovering
    have journal : w.completePartClear.journal = { s.journal.recovered failed with low := w.journal.low } := recovered
    refine ⟨w.completePartClear, congrArg Host.Outcome.next ((whenRunning_eq run _).trans out), rfl, ?_, ?_, ?_, ?_, ?_, ?_, ?_,
      fun few emptied => ?_, completePartClear_told w⟩ <;> rw [journal]
    case refine_8 => exact recovered_free few emptied
    all_goals rfl

end Sys2Proof.Machine
end

section
/-! The lamps of the roof sign (R133, R134, R136 to R138): the target, the goals a derivation gives and a step of the ramp, with their
statement. -/

namespace Sys2Proof.Machine

/-! ### The target -/

theorem occupied_lt_three_iff (t : HireTable) : t.occupied < 3 ↔ ∃ sl, (t.get sl).stage = .free := by
  have counted : t.occupied < 3 ↔ t.a.occupied = false ∨ t.b.occupied = false ∨ t.c.occupied = false := by
    unfold HireTable.occupied HireTable.count
    cases t.a.occupied <;> cases t.b.occupied <;> cases t.c.occupied <;> simp
  rw [counted, free_count, free_count, free_count]
  constructor
  · rintro (a | b | c)
    · exact ⟨.a, a⟩
    · exact ⟨.b, b⟩
    · exact ⟨.c, c⟩
  · rintro ⟨sl, free⟩
    cases sl with
    | a => exact .inl free
    | b => exact .inr (.inl free)
    | c => exact .inr (.inr free)

/-- VACANT is called for when a slot is FREE and pooling is on or every slot is FREE (R133). -/
theorem vacantWanted_iff (pooling : Bool) (t : HireTable) : vacantWanted pooling t = true ↔
    (∃ sl, (t.get sl).stage = .free) ∧ (pooling = true ∨ ∀ sl, (t.get sl).stage = .free) := by
  simp [vacantWanted, occupied_lt_three_iff, allFree_iff]

theorem signTarget_vacant {pooling : Bool} {t : HireTable} (wanted : vacantWanted pooling t = true) :
    signTarget .opened .auto pooling t = ⟨some .vacant, pooling && !t.allFree⟩ := by
  have aboard : decide (0 < t.occupied) = !t.allFree := by
    unfold HireTable.allFree
    cases t.occupied <;> rfl
  simp [signTarget, groupTarget, wanted, aboard]

theorem signTarget_hired {pooling : Bool} {t : HireTable} (unwanted : ¬vacantWanted pooling t = true) :
    signTarget .opened .auto pooling t = ⟨some .hired, false⟩ := by
  simp [signTarget, groupTarget, unwanted]

/-! ### Goals -/

theorem aim_levels (x : Sign) (t : Target) (full : Nat) (i : LampId) : ((x.aim t full).lamps.get i).level = (x.lamps.get i).level := by
  unfold Sign.aim
  split
  · rfl
  · cases i <;> rfl

/-- The ALARM lamp and the flash are not the target's (R134). -/
theorem aim_alarm (x : Sign) (t : Target) (full : Nat) :
    (x.aim t full).lamps.alarm = x.lamps.alarm ∧ (x.aim t full).flash = x.flash := by
  unfold Sign.aim
  split <;> exact ⟨rfl, rfl⟩

theorem aim_target (x : Sign) (t : Target) (full : Nat) : (x.aim t full).target = t := by
  unfold Sign.aim
  split <;> rfl

/-- A derivation that finds another target aims at it (R133). -/
theorem rederive_aims {s : State} (other : s.derivedTarget ≠ s.sign.target) :
    s.rederive = { s with sign := s.sign.aim s.derivedTarget s.fullLevel } := if_neg other

/-- What every derivation leaves on the sign: the ALARM lamp and every level (R133, R134). -/
theorem rederive_lamps (s : State) : s.rederive.sign.lamps.alarm = s.sign.lamps.alarm
    ∧ ∀ i, (s.rederive.sign.lamps.get i).level = (s.sign.lamps.get i).level := by
  rcases rederive_cases s with same | aimed
  · rw [same]
    exact ⟨rfl, fun _ => rfl⟩
  · rw [aimed]
    exact ⟨(aim_alarm _ _ _).1, aim_levels _ _ _⟩

/-! ### The ramp -/

theorem ramped_falls {x : Lamp} (above : x.goal < x.level) (may : Bool) : (x.lower.raise may).level = x.level - 1 := by
  have stays : ¬(may && decide (x.level - 1 < x.goal)) = true := by simp; omega
  simp [Lamp.lower, Lamp.raise, above, stays]

theorem ramped_stays {x : Lamp} (there : x.level = x.goal) (may : Bool) : (x.lower.raise may).level = x.level := by
  simp [Lamp.lower, Lamp.raise, there]

theorem lower_below {x : Lamp} (below : x.level < x.goal) : x.lower = x := if_neg (by omega)

theorem raise_level (x : Lamp) (may : Bool) : (x.raise may).level = if may = true ∧ x.level < x.goal then x.level + 1 else x.level := by
  unfold Lamp.raise
  by_cases rises : may = true ∧ x.level < x.goal
  · rw [if_pos (by simpa using rises), if_pos rises]
  · rw [if_neg (by simpa using rises), if_neg rises]

theorem ramped_rises {x : Lamp} (below : x.level < x.goal) (may : Bool) :
    (x.lower.raise may).level = if may = true then x.level + 1 else x.level := by
  rw [lower_below below, raise_level]
  simp [below]

theorem lower_kept (x : Lamp) : x.lower.goal = x.goal ∧ x.lower.fault = x.fault ∧ x.lower.misses = x.misses := by
  unfold Lamp.lower
  split <;> exact ⟨rfl, rfl, rfl⟩

theorem raise_kept (x : Lamp) (may : Bool) :
    (x.raise may).goal = x.goal ∧ (x.raise may).fault = x.fault ∧ (x.raise may).misses = x.misses := by
  unfold Lamp.raise
  split <;> exact ⟨rfl, rfl, rfl⟩

/-- The permission a front lamp has to rise in a ramp step, worked out after the lowering: a group lamp waits for the others of the group
to stand at 0 (R137). -/
def Lamps.mayRise (l : Lamps) : LampId → Bool
  | .vacant => l.lowerFront.hired.level == 0 && l.lowerFront.offDuty.level == 0
  | .hired => l.lowerFront.vacant.level == 0 && l.lowerFront.offDuty.level == 0
  | .offDuty => l.lowerFront.vacant.level == 0 && l.lowerFront.hired.level == 0
  | .share => true
  | .alarm => false

/-- A ramp step lowers each front lamp, then raises it if it may. -/
theorem rampStep_get (l : Lamps) {i : LampId} (front : i ≠ .alarm) : l.rampStep.get i = (l.get i).lower.raise (l.mayRise i) := by
  cases i with
  | alarm => exact absurd rfl front
  | _ => rfl

theorem rampStep_kept (l : Lamps) (i : LampId) : (l.rampStep.get i).goal = (l.get i).goal
    ∧ (l.rampStep.get i).fault = (l.get i).fault ∧ (l.rampStep.get i).misses = (l.get i).misses := by
  by_cases front : i = .alarm
  · subst front
    exact ⟨rfl, rfl, rfl⟩
  · obtain ⟨goal, fault, misses⟩ := raise_kept (l.get i).lower (l.mayRise i)
    obtain ⟨lowGoal, lowFault, lowMisses⟩ := lower_kept (l.get i)
    rw [rampStep_get l front]
    exact ⟨goal.trans lowGoal, fault.trans lowFault, misses.trans lowMisses⟩

/-- Settles O41: the target by its table, the goals by what a derivation aims at, the ramp step lamp by lamp. -/
theorem targetAndRamps : Obligations.TargetAndRamps := by
  refine ⟨⟨fun ov pooling hires => ⟨?_, ?_, rfl, rfl⟩, fun pooling hires => ⟨fun wanted => ?_, fun unwanted => ?_⟩, fun s => ?_⟩,
    fun l m step => ?_⟩
  · cases ov <;> rfl
  · cases ov <;> rfl
  · exact signTarget_vacant ((vacantWanted_iff _ _).2 wanted)
  · exact signTarget_hired (mt (vacantWanted_iff _ _).1 unwanted)
  · refine ⟨rederive_target s, fun same => if_pos same, fun other idle => ?_, (rederive_lamps s).1, (rederive_lamps s).2, rederive_only s⟩
    rw [rederive_aims other]
    exact aim_goals idle _ _
  · subst step
    have rises : ∀ i, i ≠ .alarm → (l.get i).level < (l.get i).goal →
        (l.rampStep.get i).level = if l.mayRise i = true then (l.get i).level + 1 else (l.get i).level := by
      intro i front below
      rw [rampStep_get l front]
      exact ramped_rises below _
    refine ⟨fun i front above => ?_, fun i front there => ?_, rises .share (by decide), fun below => ?_, fun below => ?_, fun below => ?_,
      rfl, rampStep_kept l⟩
    · rw [rampStep_get l front]
      exact ramped_falls above _
    · rw [rampStep_get l front]
      exact ramped_stays there _
    · simpa [Lamps.mayRise, Lamps.get] using rises .vacant (by decide) below
    · simpa [Lamps.mayRise, Lamps.get] using rises .hired (by decide) below
    · simpa [Lamps.mayRise, Lamps.get] using rises .offDuty (by decide) below

end Sys2Proof.Machine
end

section
/-! The law of the lamps (R137, R143) on the sign: each operation of the Sign Driver keeps it. -/

namespace Sys2Proof.Machine

/-! ### At most one -/

/-- A target names one lamp of the group at most. -/
theorem atMostOne_group (g : Option GroupLamp) (n : Nat) :
    AtMostOne (if g = some .vacant then n else 0) (if g = some .hired then n else 0) (if g = some .offDuty then n else 0) := by
  cases g with
  | none => exact .inl ⟨rfl, rfl⟩
  | some lamp =>
    cases lamp with
    | vacant => exact .inr (.inr ⟨rfl, rfl⟩)
    | hired => exact .inr (.inl ⟨rfl, rfl⟩)
    | offDuty => exact .inl ⟨rfl, rfl⟩

/-- With the group dark but for one lamp, one lamp at most is lit. -/
theorem GroupDarkBut.atMostOne {l : Lamps} {i : LampId} (dark : GroupDarkBut l i) :
    AtMostOne l.vacant.level l.hired.level l.offDuty.level := by
  obtain ⟨vacant, hired, offDuty⟩ := dark
  cases i with
  | vacant => exact .inr (.inr ⟨hired nofun, offDuty nofun⟩)
  | hired => exact .inr (.inl ⟨vacant nofun, offDuty nofun⟩)
  | _ => exact .inl ⟨vacant nofun, hired nofun⟩

/-- Of three numbers with one above 0 at most, those below their goals may rise while the others stand at 0: the goals let one do so. -/
theorem AtMostOne.raised {v h o v' h' o' : Nat} (levels : AtMostOne v h o) (goals : AtMostOne v' h' o') :
    AtMostOne (if (h = 0 ∧ o = 0) ∧ v < v' then v + 1 else v) (if (v = 0 ∧ o = 0) ∧ h < h' then h + 1 else h)
      (if (v = 0 ∧ h = 0) ∧ o < o' then o + 1 else o) := by
  unfold AtMostOne at *
  split <;> split <;> split <;> omega

/-! ### Goals, the ALARM lamp and the flash -/

theorem LampLaw.levels {x : Sign} (law : LampLaw x) : AtMostOne x.lamps.vacant.level x.lamps.hired.level x.lamps.offDuty.level := law.1

theorem LampLaw.goals {x : Sign} (law : LampLaw x) : AtMostOne x.lamps.vacant.goal x.lamps.hired.goal x.lamps.offDuty.goal := by
  obtain ⟨-, goals, -⟩ := law
  exact goals

theorem LampLaw.dark {x : Sign} (law : LampLaw x) {t : SignTest} (test : x.test = some t) : GroupDarkBut x.lamps t.lamp := by
  obtain ⟨-, -, dark⟩ := law
  exact dark t test

/-- What leaves the front lamps but for their goals keeps the law if it leaves one goal of the group at most above 0. -/
theorem LampLaw.held {x y : Sign} (law : LampLaw x) (held : SignHeld x y)
    (goals : AtMostOne y.lamps.vacant.goal y.lamps.hired.goal y.lamps.offDuty.goal) : LampLaw y := by
  have vacant : y.lamps.vacant.level = x.lamps.vacant.level := held.front.level (i := .vacant) nofun
  have hired : y.lamps.hired.level = x.lamps.hired.level := held.front.level (i := .hired) nofun
  have offDuty : y.lamps.offDuty.level = x.lamps.offDuty.level := held.front.level (i := .offDuty) nofun
  refine ⟨by rw [vacant, hired, offDuty]; exact law.levels, goals, fun t test => ?_⟩
  unfold GroupDarkBut
  rw [vacant, hired, offDuty]
  exact law.dark (held.test.symm.trans test)

theorem LampLaw.aim {x : Sign} (law : LampLaw x) (t : Target) (full : Nat) : LampLaw (x.aim t full) := by
  refine law.held (aim_held x t full) ?_
  cases idle : x.test with
  | none =>
    obtain ⟨vacant, hired, offDuty, -⟩ := aim_goals idle t full
    rw [vacant, hired, offDuty]
    exact atMostOne_group _ _
  | some test => simpa [Sign.aim, idle] using law.goals

theorem LampLaw.alarmLevel {x : Sign} (law : LampLaw x) (level : Nat) : LampLaw (x.alarmLevel level) := by
  refine law.held (alarmLevel_held x level) ?_
  obtain ⟨vacant, hired, offDuty, -⟩ := alarmLevel_front x level
  rw [vacant, hired, offDuty]
  exact law.goals

theorem LampLaw.withFlash {x : Sign} (law : LampLaw x) (f : Option Flash) : LampLaw { x with flash := f } := law

theorem LampLaw.flashTick {x : Sign} (law : LampLaw x) (full : Nat) : LampLaw (x.flashTick full) := by
  unfold Sign.flashTick
  split
  · exact law
  · split
    · exact (law.withFlash _).alarmLevel _
    · exact law.withFlash _

/-! ### The ramp and the lamp checks -/

theorem lower_dark {x : Lamp} (dark : x.level = 0) : x.lower.level = 0 := by
  rw [Lamp.lower, if_neg (by omega)]
  exact dark

/-- The lowering leaves dark lamps dark. -/
theorem lowerFront_atMostOne {l : Lamps} (levels : AtMostOne l.vacant.level l.hired.level l.offDuty.level) :
    AtMostOne l.lowerFront.vacant.level l.lowerFront.hired.level l.lowerFront.offDuty.level := by
  rcases levels with ⟨vacant, hired⟩ | ⟨vacant, offDuty⟩ | ⟨hired, offDuty⟩
  · exact .inl ⟨lower_dark vacant, lower_dark hired⟩
  · exact .inr (.inl ⟨lower_dark vacant, lower_dark offDuty⟩)
  · exact .inr (.inr ⟨lower_dark hired, lower_dark offDuty⟩)

/-- A ramp step lights no second lamp of the group (R137). -/
theorem rampStep_atMostOne {l : Lamps} (levels : AtMostOne l.vacant.level l.hired.level l.offDuty.level)
    (goals : AtMostOne l.vacant.goal l.hired.goal l.offDuty.goal) :
    AtMostOne l.rampStep.vacant.level l.rampStep.hired.level l.rampStep.offDuty.level := by
  have lowered : AtMostOne l.lowerFront.vacant.goal l.lowerFront.hired.goal l.lowerFront.offDuty.goal := by
    unfold Lamps.lowerFront
    rw [(lower_kept _).1, (lower_kept _).1, (lower_kept _).1]
    exact goals
  have raised := (lowerFront_atMostOne levels).raised lowered
  simpa [Lamps.rampStep, Lamps.raiseFront, raise_level] using raised

theorem LampLaw.ramp {x : Sign} (law : LampLaw x) : LampLaw x.ramp := by
  unfold Sign.ramp
  split
  · exact law
  · rename_i idle
    refine ⟨rampStep_atMostOne law.levels law.goals, ?_, fun t test => absurd (Option.isSome_of_eq_some test) idle⟩
    have kept := fun i => (rampStep_kept x.lamps i).1
    have vacant : x.lamps.rampStep.vacant.goal = x.lamps.vacant.goal := kept .vacant
    have hired : x.lamps.rampStep.hired.goal = x.lamps.hired.goal := kept .hired
    have offDuty : x.lamps.rampStep.offDuty.goal = x.lamps.offDuty.goal := kept .offDuty
    rw [vacant, hired, offDuty]
    exact law.goals

/-- A lamp check moves no level and no goal (R140). -/
theorem LampLaw.checked {x : Sign} (law : LampLaw x) (b : LampBits) : LampLaw { x with lamps := x.lamps.check b } := by
  simpa [LampLaw, GroupDarkBut, Lamps.check, check_kept] using law

/-! ### The sign test -/

theorem setLevel_level (l : Lamps) (i j : LampId) (n : Nat) :
    ((l.setLevel i n).get j).level = if j = i then n else (l.get j).level := by
  cases i <;> cases j <;> rfl

theorem setLevel_goal (l : Lamps) (i j : LampId) (n : Nat) : ((l.setLevel i n).get j).goal = (l.get j).goal := by
  cases i <;> cases j <;> rfl

/-- The group seen lamp by lamp. -/
theorem groupDarkBut_iff (l : Lamps) (i : LampId) :
    GroupDarkBut l i ↔ ∀ j, j ≠ .share → j ≠ .alarm → i ≠ j → (l.get j).level = 0 := by
  constructor
  · rintro ⟨vacant, hired, offDuty⟩ j notShare notAlarm ne
    cases j with
    | vacant => exact vacant ne
    | hired => exact hired ne
    | offDuty => exact offDuty ne
    | share => exact absurd rfl notShare
    | alarm => exact absurd rfl notAlarm
  · intro dark
    exact ⟨dark .vacant nofun nofun, dark .hired nofun nofun, dark .offDuty nofun nofun⟩

/-- With the lamp tested put out, only the following one can be lit (R143). -/
theorem GroupDarkBut.moved {l : Lamps} {i : LampId} (dark : GroupDarkBut l i) (following : LampId) :
    GroupDarkBut ((l.setLevel i 0).setLevel following 15) following := by
  rw [groupDarkBut_iff] at dark ⊢
  intro j notShare notAlarm ne
  rw [setLevel_level, if_neg (Ne.symm ne), setLevel_level]
  split
  · rfl
  · rename_i other
    exact dark j notShare notAlarm (Ne.symm other)

/-- A test that lights one lamp of a group otherwise dark keeps the law. -/
theorem LampLaw.tested {x : Sign} (law : LampLaw x) {l : Lamps} (t : SignTest) (dark : GroupDarkBut l t.lamp)
    (goals : ∀ i, (l.get i).goal = (x.lamps.get i).goal) : LampLaw { x with lamps := l, test := some t } := by
  refine ⟨dark.atMostOne, ?_, fun u running => ?_⟩
  · have vacant : l.vacant.goal = x.lamps.vacant.goal := goals .vacant
    have hired : l.hired.goal = x.lamps.hired.goal := goals .hired
    have offDuty : l.offDuty.goal = x.lamps.offDuty.goal := goals .offDuty
    dsimp only
    rw [vacant, hired, offDuty]
    exact law.goals
  · obtain rfl := Option.some.inj running
    exact dark

theorem LampLaw.beginTest {x : Sign} (law : LampLaw x) : LampLaw x.beginTest := by
  refine law.tested ⟨.vacant, 100⟩ ⟨fun ne => absurd rfl ne, fun _ => rfl, fun _ => rfl⟩ fun i => ?_
  simp [Lamps.frontDark, setLevel_goal]

theorem LampLaw.stepTest {x : Sign} (law : LampLaw x) {t : SignTest} (test : x.test = some t) (following : LampId) :
    LampLaw (x.stepTest t.lamp following) := by
  refine law.tested ⟨following, 100⟩ ((law.dark test).moved following) fun i => ?_
  rw [setLevel_goal, setLevel_goal]

theorem LampLaw.withoutTest {x : Sign} (law : LampLaw x) : LampLaw { x with test := none } :=
  ⟨law.levels, law.goals, nofun⟩

theorem LampLaw.endTest {x : Sign} (law : LampLaw x) (full : Nat) : LampLaw (x.endTest full) :=
  (law.withoutTest.alarmLevel _).aim _ _

/-! ### Clears and power-on values -/

/-- Dark lamps with the goals as they were, and no test (R144). -/
theorem LampLaw.cleared {x : Sign} (law : LampLaw x) : LampLaw { x with lamps := x.lamps.cleared, test := none } :=
  ⟨.inl ⟨rfl, rfl⟩, law.goals, nofun⟩

theorem powerOn_lampLaw (ov : Override) (night : Bool) : LampLaw (Sign.powerOn ov night) :=
  ⟨.inl ⟨rfl, rfl⟩, .inl ⟨rfl, rfl⟩, nofun⟩

end Sys2Proof.Machine
end

section
/-! The law of the lamps (R137) through the Sign Driver's ticks, the supply, the requests and the transfers, and at every step. What
touches no sign keeps the law as it stands; the work of hires and filings only derives the target afresh. -/

namespace Sys2Proof.Machine

/-- The sign of a state meets the law of the lamps. -/
def LampsLawful (s : State) : Prop := LampLaw s.sign

/-- Hires and filings reach the sign by the derivation of its target alone (R133). -/
theorem filed_lamps : Filed LampsLawful where
  hires _ _ h := h
  ports _ _ h := h
  shift _ _ _ _ h := h
  journal _ _ _ h := h
  derive s h := by
    rcases rederive_cases s with same | aimed
    · rw [same]
      exact h
    · rw [aimed]
      exact LampLaw.aim h _ _

namespace LampsLawful

variable {s : State}

/-- What comes of a choice, whichever way it falls. -/
theorem either {c : Prop} [Decidable c] {t u : State} (ht : LampsLawful t) (hu : LampsLawful u) : LampsLawful (if c then t else u) := by
  split
  · exact ht
  · exact hu

theorem fullLevelChanged (h : LampsLawful s) : LampsLawful s.fullLevelChanged := by
  have aimed := LampLaw.aim h s.sign.target s.fullLevel
  unfold State.fullLevelChanged
  dsimp only
  split
  · exact aimed.alarmLevel _
  · exact aimed

/-! ### A tick -/

theorem rampTick (h : LampsLawful s) : LampsLawful s.rampTick := by
  unfold State.rampTick
  split
  · exact LampLaw.ramp h
  · exact h

theorem readAmbient (h : LampsLawful s) (night : Bool) : LampsLawful (s.readAmbient night) := by
  unfold State.readAmbient
  split
  · exact h
  · split
    · exact fullLevelChanged h
    · exact h

theorem testTick (h : LampsLawful s) : LampsLawful s.testTick := by
  unfold State.testTick
  split
  · exact h
  · rename_i t test
    split
    · split
      · exact LampLaw.stepTest h test _
      · exact LampLaw.endTest h _
    · have dark := LampLaw.dark h test
      exact LampLaw.tested h { t with left := t.left - 1 } dark fun _ => rfl

theorem checkLamps (h : LampsLawful s) (b : LampBits) : LampsLawful (s.checkLamps b) := by
  unfold LampsLawful
  rw [(checkLamps_out s b).2]
  exact LampLaw.checked h b

theorem signTick (h : LampsLawful s) (fare : Bool) : LampsLawful (s.signTick fare) := by
  have flashed : LampsLawful s.flashed := LampLaw.flashTick (h.rampTick.readAmbient _) _
  rw [signTick_eq]
  split
  · exact flashed.testTick.checkLamps _
  · exact flashed.testTick

theorem intercomTick (h : LampsLawful s) : LampsLawful s.intercomTick := by
  obtain ⟨-, sign, -⟩ := intercomTick_out s
  unfold LampsLawful
  rw [sign]
  exact h

/-- A first press begins the flash (R167). -/
theorem alarmTick (h : LampsLawful s) : LampsLawful s.alarmTick := by
  unfold State.alarmTick
  dsimp only
  split
  · unfold State.alarmPress
    split
    · exact (LampLaw.withFlash h _).alarmLevel _
    · exact h
  · exact h

/-! ### Clears and power-on values -/

theorem signDerived (h : LampsLawful s) : LampsLawful s.signDerived := by
  have aimed := LampLaw.aim h s.derivedTarget s.fullLevel
  unfold State.signDerived
  dsimp only [LampsLawful]
  split
  · exact (aimed.withFlash _).alarmLevel _
  · exact aimed

theorem signClear (h : LampsLawful s) : LampsLawful s.signClear := signDerived (s := { s with sign := _ }) (LampLaw.cleared h)

/-- The power-on values meet the law, whatever the sign was (R132). -/
theorem signPowerOn (s : State) (ov : Override) : LampsLawful (s.signPowerOn ov) :=
  signDerived (s := { s with sign := _ }) (powerOn_lampLaw _ _)

theorem completePartClear (s : State) : LampsLawful s.completePartClear := signPowerOn _ .auto

theorem partClearOn (h : LampsLawful s) : LampsLawful s.partClearOn := by
  unfold State.partClearOn
  split
  · split
    · exact h
    · exact h
    · exact completePartClear s
    · split
      · exact h
      · exact completePartClear s
  · exact h

theorem tick (h : LampsLawful s) (l : Lines) : LampsLawful (s.tick l) := by
  have read : LampsLawful { s with pins := l, timeBase := s.nextCount } := h
  have before : LampsLawful (preTick l s) := (read.signTick _).intercomTick.alarmTick
  rw [tick_eq]
  split
  · exact (filed_lamps.fareWork before).partClearOn
  · exact before.partClearOn

/-! ### The Journal and the supply -/

theorem updateLowFrom (h : LampsLawful s) (old : Nat) : LampsLawful (s.updateLowFrom old) := by
  unfold State.updateLowFrom
  split
  · exact h
  · exact filed_lamps.updateLow h

theorem verifyPass (h : LampsLawful s) : LampsLawful s.verifyPass := by
  unfold State.verifyPass
  split
  · exact filed_lamps.fileOn (filed_lamps.complete _ (filed_lamps.updateLow h))
  · exact h

theorem faultRule (h : LampsLawful s) (before : JournalState) : LampsLawful (s.faultRule before) := by
  unfold State.faultRule
  dsimp only
  split <;> split <;> exact h

theorem verifyFail (h : LampsLawful s) : LampsLawful s.verifyFail := by
  unfold State.verifyFail
  split
  · refine filed_lamps.fileOn (filed_lamps.updateLow (faultRule ?_ _))
    exact h
  · exact h

theorem recoveryStart (h : LampsLawful s) : LampsLawful s.recoveryStart := by
  unfold State.recoveryStart
  split
  · exact h.partClearOn
  · exact h

theorem recoveryEnd (h : LampsLawful s) (failed : List Nat) : LampsLawful (s.recoveryEnd failed) := by
  unfold State.recoveryEnd
  split
  · exact completePartClear _
  · exact h

theorem activationDone (h : LampsLawful s) : LampsLawful s.activationDone := by
  unfold State.activationDone
  split
  · exact filed_lamps.fileOn (filed_lamps.notify _ _ (filed_lamps.handOver _ h))
  · exact h

theorem activationFailed (h : LampsLawful s) : LampsLawful s.activationFailed := by
  unfold State.activationFailed
  split <;> exact h

theorem onTotalsWrite (h : LampsLawful s) (f : ShiftAccounting → TotalsWrite → ShiftAccounting) : LampsLawful (s.onTotalsWrite f) := by
  unfold State.onTotalsWrite
  split <;> exact h

theorem configWritten (h : LampsLawful s) : LampsLawful s.configWritten := by
  unfold State.configWritten
  split <;> exact h

theorem configWriteFailed (h : LampsLawful s) : LampsLawful s.configWriteFailed := by
  unfold State.configWriteFailed
  split
  · split <;> exact h
  · exact h

theorem wheelPulse (h : LampsLawful s) : LampsLawful s.wheelPulse := by
  have pulsed := filed_lamps.eachHire (Hire.pulse s.tariffs.config.k s.hires.running s.tariffs.active) h
  unfold State.wheelPulse
  dsimp only
  split <;> exact pulsed

theorem warned (h : LampsLawful s) : LampsLawful s.warned := by
  unfold State.warned
  split <;> exact h

theorem freeze (h : LampsLawful s) : LampsLawful s.freeze := by
  unfold State.freeze
  split <;> exact h

/-- A start-up ends with the sign's power-on values (R191). -/
theorem startUp (s : State) (intact : Bool) (u : StartUp) : LampsLawful (s.startUp intact u) := signPowerOn _ _

/-! ### Requests of Shift Accounting and the Hire Controller -/

theorem openShiftOwner (h : LampsLawful s) (driver : Half) : LampsLawful (openShiftOwner driver s).1 :=
  checked_keeps _ (fun _ => filed_lamps.derive _ h) h

theorem closeShiftOwner (h : LampsLawful s) : LampsLawful (closeShiftOwner s).1 := by
  unfold Machine.closeShiftOwner
  split
  · exact filed_lamps.closeShift h
  · exact h

theorem setPoolingOwner (h : LampsLawful s) (pooling : Byte) : LampsLawful (setPoolingOwner pooling s).1 := by
  unfold Machine.setPoolingOwner
  split
  · exact h
  · exact checked_keeps _ (fun _ => filed_lamps.derive _ h) h

theorem readCounterOwner (h : LampsLawful s) (p : PortId) (index : Byte) : LampsLawful (readCounterOwner p index s).1 := by
  unfold Machine.readCounterOwner
  split
  · exact h
  · split <;> exact h

theorem bookOwner (h : LampsLawful s) (slot : Byte) (ref : BitVec 64) (d : Half) : LampsLawful (bookOwner slot ref d s).1 :=
  withSlot_keeps _ (fun sl => checked_keeps _ (filed_lamps.enterStage sl _)) h

theorem cancelBookingOwner (h : LampsLawful s) (slot : Byte) : LampsLawful (cancelBookingOwner slot s).1 :=
  withSlot_keeps _ (fun sl => checked_keeps _ (filed_lamps.enterStage sl _)) h

theorem startHireOwner (h : LampsLawful s) (slot choice : Byte) : LampsLawful (startHireOwner slot choice s).1 := by
  refine withSlot_keeps _ (fun sl => checked_keeps _ fun h => ?_) h
  split
  · exact h
  · exact checked_keeps _ (fun _ => filed_lamps.enterStage sl _ h) h

theorem suspendOwner (h : LampsLawful s) (slot : Byte) : LampsLawful (suspendOwner slot s).1 :=
  withSlot_keeps _ (fun sl => checked_keeps _ fun h => filed_lamps.count _ _ (filed_lamps.enterStage sl _ h)) h

theorem resumeOwner (h : LampsLawful s) (slot : Byte) : LampsLawful (resumeOwner slot s).1 :=
  withSlot_keeps _ (fun sl => checked_keeps _ (filed_lamps.enterStage sl _)) h

theorem stopHireOwner (h : LampsLawful s) (slot : Byte) : LampsLawful (stopHireOwner slot s).1 := by
  refine withSlot_keeps _ (fun sl h => ?_) h
  dsimp only
  split
  · exact filed_lamps.enterStage _ _ h
  · exact filed_lamps.enterStage _ _ h
  · exact h
  · exact checked_keeps _ id h
  · exact h
  · exact h
  · exact h

/-- The record of a slot written and the settlement check made (R19). -/
theorem putAndSettle (h : LampsLawful s) (sl : SlotId) (x : Hire) : LampsLawful ((s.putHire sl x).settleAndFile sl) :=
  filed_lamps.settleAndFile _ (filed_lamps.putHire _ _ h)

theorem addExtraOwner (h : LampsLawful s) (slot extra : Byte) : LampsLawful (addExtraOwner slot extra s).1 := by
  refine withSlot_keeps _ (fun sl => checked_keeps _ fun h => ?_) h
  split
  · exact h
  · exact checked_keeps _ (fun h => h.putAndSettle sl _) h

theorem removeExtraOwner (h : LampsLawful s) (slot extra : Byte) : LampsLawful (removeExtraOwner slot extra s).1 := by
  refine withSlot_keeps _ (fun sl => checked_keeps _ fun h => putAndSettle ?_ sl _) h
  exact h

theorem closeUnpaidOwner (h : LampsLawful s) (slot : Byte) : LampsLawful (closeUnpaidOwner slot s).1 :=
  withSlot_keeps _ (fun sl => checked_keeps _ fun h => filed_lamps.fileOn (filed_lamps.enterFiling sl _ h)) h

theorem readHireOwner (h : LampsLawful s) (p : PortId) (slot : Byte) : LampsLawful (readHireOwner p slot s).1 :=
  withSlot_keeps _ (fun sl => filed_lamps.renew p sl) h

/-! ### Requests of the Settlement Unit -/

theorem claimOwner (h : LampsLawful s) (p : PortId) (slot : Byte) : LampsLawful (claimOwner p slot s).1 := by
  refine withSlot_keeps _ (fun sl => checked_keeps _ fun h => ?_) h
  split
  · exact filed_lamps.renew p sl h
  · exact checked_keeps _ (fun h => h.putAndSettle sl _) h

theorem releaseOwner (h : LampsLawful s) (p : PortId) (slot : Byte) : LampsLawful (releaseOwner p slot s).1 :=
  withSlot_keeps _ (fun sl => checked_keeps _ fun h => h.putAndSettle sl _) h

theorem beginPaymentOwner (h : LampsLawful s) (p : PortId) (slot method : Byte) (amount tip : Word) :
    LampsLawful (beginPaymentOwner p slot method amount tip s).1 :=
  withSlot_keeps _ (fun sl => checked_keeps _ fun h => h.putAndSettle sl _) h

theorem postCashOwner (h : LampsLawful s) (slot : Byte) (amount tip : Word) : LampsLawful (postCashOwner slot amount tip s).1 :=
  withSlot_keeps _ (fun sl => checked_keeps _ fun h => h.putAndSettle sl _) h

theorem reverseEntry (h : LampsLawful s) (p : PortId) (sl : SlotId) (index : Nat) (e : Payment) :
    LampsLawful (reverseEntry p sl index e s).1 := by
  refine putAndSettle ?_ sl _
  split <;> exact h

theorem reverseOwner (h : LampsLawful s) (p : PortId) (slot entry : Byte) : LampsLawful (reverseOwner p slot entry s).1 := by
  refine withSlot_keeps _ (fun sl => checked_keeps _ fun h => ?_) h
  split
  · exact h
  · exact checked_keeps _ (fun h => h.reverseEntry p sl _ _) h

theorem writeResult (h : LampsLawful s) (p : PortId) (sl : SlotId) (index : Nat) (e : Payment) :
    LampsLawful (writeResult p sl index e s).1 := h.putAndSettle sl _

theorem pendingResult (h : LampsLawful s) (p : PortId) (sl : SlotId) (f : ResultFields) (approved : Bool) (route : Route) (e : Payment) :
    LampsLawful (pendingResult p sl f approved route e s).1 := by
  unfold Machine.pendingResult
  split
  · exact h
  · split
    · exact h
    · split
      · exact h.writeResult _ _ _ _
      · split
        · exact h.writeResult _ _ _ _
        · split
          · refine writeResult ?_ _ _ _ _
            exact h
          · exact h

theorem lateResult (h : LampsLawful s) (sl : SlotId) (f : ResultFields) (approved : Bool) (e : Payment) :
    LampsLawful (s.lateResult sl f approved e) := by
  unfold State.lateResult
  dsimp only
  split
  · exact h
  · split
    · split
      · exact h
      · exact filed_lamps.lateApproval _ _ _ _ _ _ (filed_lamps.putHire _ _ h)
    · exact filed_lamps.lateApproval _ _ _ _ _ _ h

theorem presentResult (h : LampsLawful s) (p : PortId) (sl : SlotId) (f : ResultFields) (approved : Bool) (route : Route) :
    LampsLawful (presentResult p sl f approved route s).1 := by
  unfold Machine.presentResult
  dsimp only
  split
  · exact h
  · split
    · exact h
    · split
      · exact h
      · split
        · exact h.pendingResult _ _ _ _ _ _
        · unfold expiredResult
          split
          · exact h
          · exact filed_lamps.renew _ _ (h.lateResult _ _ _ _)
        · exact h

theorem paymentResultOwner (h : LampsLawful s) (p : PortId) (f : ResultFields) : LampsLawful (paymentResultOwner p f s).1 := by
  unfold Machine.paymentResultOwner
  split
  · split
    · exact h
    · split
      · exact h.presentResult _ _ _ _ _
      · unfold goneResult
        split
        · exact h
        · split
          · exact filed_lamps.lateApproval _ _ _ _ _ _ h
          · exact h
  · exact h

/-! ### Requests of the Tariff Store, the Time Base and the Journal -/

theorem answerBlock (h : LampsLawful s) (pl : List Byte) (c : Chain) (code : Code) (result : List Byte) :
    LampsLawful (answerBlock pl c code result s).1 := by
  unfold Machine.answerBlock
  split <;> exact h

theorem loadOwner (h : LampsLawful s) (pl : List Byte) : LampsLawful (loadOwner pl s).1 := by
  refine checked_keeps _ (fun h => ?_) h
  unfold loadBlock
  split
  · exact h.answerBlock _ _ _ _
  · split
    · refine answerBlock ?_ _ _ _ _
      exact h
    · exact h.answerBlock _ _ _ _

theorem compareOwner (h : LampsLawful s) (pl : List Byte) : LampsLawful (compareOwner pl s).1 := by
  refine checked_keeps _ (fun h => ?_) h
  unfold compareBlock
  split
  · exact h.answerBlock _ _ _ _
  · split <;> exact h.answerBlock _ _ _ _

theorem readTariffOwner (h : LampsLawful s) (set item place : Byte) : LampsLawful (readTariffOwner set item place s).1 := by
  unfold Machine.readTariffOwner
  split
  · exact h
  · split <;> exact h

/-- A changed full level is the goal of the lamps in the target (R61, R136). -/
theorem setConfigOwner (h : LampsLawful s) (f : ConfigFields) : LampsLawful (setConfigOwner f s).1 := by
  refine checked_keeps _ (fun h => ?_) h
  have taken : LampsLawful { s with
      tariffs := { s.tariffs with config := s.tariffs.config.updated f, configWrite := some 0 }
      odoRem := if changesK s f then 0 else s.odoRem } := h
  exact either (taken.updateLowFrom _) (taken.updateLowFrom _).fullLevelChanged

theorem setClockOwner (h : LampsLawful s) (f : ClockFields) : LampsLawful (setClockOwner f s).1 := by
  unfold Machine.setClockOwner
  split <;> exact h

theorem setClockPayload (h : LampsLawful s) (pl : List Byte) : LampsLawful (setClockPayload pl s).1 := by
  unfold Machine.setClockPayload
  split
  · exact h
  · exact h.setClockOwner _

theorem ackJournalOwner (h : LampsLawful s) (seq : Word) : LampsLawful (ackJournalOwner seq s).1 := by
  refine checked_keeps _ (fun h => ?_) h
  split
  · exact h
  · exact filed_lamps.updateLow h

theorem readUnfiledOwner (h : LampsLawful s) : LampsLawful (readUnfiledOwner s).1 := by
  unfold Machine.readUnfiledOwner
  split <;> exact h

/-! ### Requests of the Sign Driver, the Intercom Switch, the Alarm Unit and the Port Interface -/

theorem signOverrideOwner (h : LampsLawful s) (value : Byte) : LampsLawful (signOverrideOwner value s).1 := by
  unfold Machine.signOverrideOwner
  split
  · exact h
  · split
    · exact h
    · split
      · exact filed_lamps.derive _ h
      · exact h

theorem signTestRunOwner (h : LampsLawful s) : LampsLawful (signTestRunOwner s).1 := by
  unfold Machine.signTestRunOwner
  split
  · exact h
  · exact LampLaw.beginTest h

theorem signTestOwner (h : LampsLawful s) (value : Byte) : LampsLawful (signTestOwner value s).1 := by
  unfold Machine.signTestOwner
  split
  · exact h.signTestRunOwner
  · split <;> exact h

theorem setTalkModeOwner (h : LampsLawful s) (mode : Byte) : LampsLawful (setTalkModeOwner mode s).1 := by
  unfold Machine.setTalkModeOwner
  split
  · exact h
  · split <;> exact h

theorem setVolumeOwner (h : LampsLawful s) (path volume : Byte) : LampsLawful (setVolumeOwner path volume s).1 := by
  unfold Machine.setVolumeOwner
  split
  · exact h
  · exact checked_keeps _ id h

theorem setMonitorOwner (h : LampsLawful s) (select : Byte) : LampsLawful (setMonitorOwner select s).1 := by
  unfold Machine.setMonitorOwner
  split <;> exact h

/-- A stand-down ends the flash (R169). -/
theorem alarmStandDownOwner (h : LampsLawful s) : LampsLawful (alarmStandDownOwner s).1 := by
  unfold Machine.alarmStandDownOwner
  split
  · exact (LampLaw.withFlash h _).alarmLevel _
  · exact h

theorem setIndicatorsOwner (h : LampsLawful s) (enable value : Byte) : LampsLawful (setIndicatorsOwner enable value s).1 := by
  refine either ?_ ?_
  · exact h
  · exact h

/-! ### From a port to the owners -/

/-- The work of a request's owner, by its kind. -/
theorem ownerOf (h : LampsLawful s) (p : PortId) (pl : List Byte) (k : Kind) : LampsLawful (ownerOf p pl k s).1 :=
  match k with
  | .openShift => h.openShiftOwner _
  | .closeShift => h.closeShiftOwner
  | .setPooling => h.setPoolingOwner _
  | .readCounter => h.readCounterOwner _ _
  | .book => h.bookOwner _ _ _
  | .cancelBooking => h.cancelBookingOwner _
  | .startHire => h.startHireOwner _ _
  | .suspend => h.suspendOwner _
  | .resume => h.resumeOwner _
  | .stopHire => h.stopHireOwner _
  | .addExtra => h.addExtraOwner _ _
  | .removeExtra => h.removeExtraOwner _ _
  | .closeUnpaid => h.closeUnpaidOwner _
  | .readHire => h.readHireOwner _ _
  | .claim => h.claimOwner _ _
  | .release => h.releaseOwner _ _
  | .beginPayment => h.beginPaymentOwner _ _ _ _ _
  | .paymentResult => h.paymentResultOwner _ _
  | .reverse => h.reverseOwner _ _ _
  | .postCash => h.postCashOwner _ _ _
  | .load => h.loadOwner _
  | .compare => h.compareOwner _
  | .readTariff => h.readTariffOwner _ _ _
  | .setConfig => h.setConfigOwner _
  | .setClock => h.setClockPayload _
  | .ackJournal => h.ackJournalOwner _
  | .readUnfiled => h.readUnfiledOwner
  | .signOverride => h.signOverrideOwner _
  | .signTest => h.signTestOwner _
  | .signClear => h.signClear
  | .setTalkMode => h.setTalkModeOwner _
  | .setVolume => h.setVolumeOwner _ _
  | .setMonitor => h.setMonitorOwner _
  | .alarmStandDown => h.alarmStandDownOwner
  | .setIndicators => h.setIndicatorsOwner _ _
  | .activate | .readJournal | .ackUnfiled | .postPrompt | .clearPart => checked_keeps (P := LampsLawful) _ id h
  | .readShift | .latchCounters | .readIntercom | .intercomClear | .readAlarmLog | .readIndicators | .ackNotices | .setNoticeMask
  | .setStageMask | .null => h

theorem admitRequest {owner : Owner} (h : LampsLawful s) (p : PortId) (k tag : Byte) (offered : Bool)
    (work : LampsLawful (owner s).1) : LampsLawful (admitRequest p k tag offered owner s) :=
  admit_rel (R := fun _ t => LampsLawful t) h (fun _ _ g => g) work

theorem admitNull (h : LampsLawful s) (p : PortId) (tag : Byte) : LampsLawful (admitNull p tag s) := by
  unfold Machine.admitNull
  split
  · exact h
  · exact h
  · unfold State.takeNull
    dsimp only
    split <;> exact h

theorem takeFrame (h : LampsLawful s) (p : PortId) (bs : List Byte) : LampsLawful (takeFrame p bs s) := by
  unfold Machine.takeFrame
  dsimp only
  split
  · unfold takeRequest
    split
    · exact h.admitNull _ _
    · refine h.admitRequest _ _ _ _ ?_
      unfold checkedOwner
      split
      · exact h.ownerOf _ _ _
      · exact h
    · exact h.admitRequest _ _ _ _ h
  · exact h

theorem setReceive (h : LampsLawful s) (p : PortId) (x : Option (List Byte)) : LampsLawful (s.setReceive p x) := h

theorem receiveByte (h : LampsLawful s) (p : PortId) (b : Byte) : LampsLawful (receiveByte p s b) := by
  unfold Machine.receiveByte
  split
  · exact h
  · split
    · exact h
    · exact h
    · exact (h.setReceive _ _).takeFrame _ _

theorem receiveBytes (p : PortId) (bs : List Byte) : ∀ {s : State}, LampsLawful s → LampsLawful (receiveBytes p bs s) := by
  induction bs with
  | nil => exact id
  | cons b bs ih => exact fun h => ih (h.receiveByte p b)

theorem readTransfer (h : LampsLawful s) (p : PortId) (n : Nat) : LampsLawful (s.readTransfer p n) := by
  unfold State.readTransfer
  dsimp only
  split
  · exact h
  · split <;> exact h

end LampsLawful

/-! ### Every command and every step -/

/-- Whatever state an outcome leads to meets the law. -/
def LampsLawfulTo (o : Host.Outcome State Fault Refusal) : Prop := ∀ t, o = .next t → LampsLawful t

theorem lampsLawfulTo_next {t : State} (h : LampsLawful t) : LampsLawfulTo (.next t) := by
  intro u same
  injection same with same
  exact same ▸ h

namespace LampsLawful

variable {s : State}

theorem request {owner : Owner} (h : LampsLawful s) (p : PortId) (k : Kind) (tag : Byte) (work : LampsLawful (owner s).1) :
    LampsLawfulTo (request p k tag owner s) := lampsLawfulTo_next (h.admitRequest _ _ _ _ work)

/-- A block whose payload is too long is malformed, and reaches no owner (R175). -/
theorem block {owner : Owner} (h : LampsLawful s) (p : PortId) (k : Kind) (tag : Byte) (pl : List Byte)
    (work : LampsLawful (owner s).1) : LampsLawfulTo (requestBlock p k tag pl owner s) := by
  unfold requestBlock
  split
  · exact h.request _ _ _ work
  · refine lampsLawfulTo_next ?_
    split <;> exact h

/-- An event that a running part takes. -/
theorem event {f : State → State} (h : LampsLawful s) (work : LampsLawful (f s)) : LampsLawfulTo (.next (whenRunning f s)) :=
  lampsLawfulTo_next (either work h)

/-- A transfer on a port of a part that is not frozen. -/
theorem transfer {f : State → State} (h : LampsLawful s) (work : LampsLawful (f s)) : LampsLawfulTo (.next (unlessFrozen f s)) :=
  lampsLawfulTo_next (either h work)

/-- An event that falls or does not (log entry 4). -/
theorem falling {c : Prop} [Decidable c] {f : State → State} (h : LampsLawful s) (work : LampsLawful (f s)) :
    LampsLawfulTo (.next (if c then whenRunning f s else s)) := lampsLawfulTo_next (either (either work h) h)

theorem tickWith (h : LampsLawful s) (falls : State → Bool) (l : Lines) : LampsLawfulTo (.next (tickWith falls l s)) :=
  h.falling (h.tick l)

end LampsLawful

/-- Every command keeps the law. -/
theorem exec_lamps (i : Instr) {s : State} (h : LampsLawful s) : LampsLawfulTo (exec i s) :=
  match i with
  | .openShift _ _ _ => h.request _ _ _ (h.openShiftOwner _)
  | .closeShift _ _ => h.request _ _ _ h.closeShiftOwner
  | .setPooling _ _ _ => h.request _ _ _ (h.setPoolingOwner _)
  | .readCounter _ _ _ => h.request _ _ _ (h.readCounterOwner _ _)
  | .book _ _ _ _ _ => h.request _ _ _ (h.bookOwner _ _ _)
  | .cancelBooking _ _ _ => h.request _ _ _ (h.cancelBookingOwner _)
  | .startHire _ _ _ _ => h.request _ _ _ (h.startHireOwner _ _)
  | .suspend _ _ _ => h.request _ _ _ (h.suspendOwner _)
  | .resume _ _ _ => h.request _ _ _ (h.resumeOwner _)
  | .stopHire _ _ _ => h.request _ _ _ (h.stopHireOwner _)
  | .addExtra _ _ _ _ => h.request _ _ _ (h.addExtraOwner _ _)
  | .removeExtra _ _ _ _ => h.request _ _ _ (h.removeExtraOwner _ _)
  | .closeUnpaid _ _ _ => h.request _ _ _ (h.closeUnpaidOwner _)
  | .readHire _ _ _ => h.request _ _ _ (h.readHireOwner _ _)
  | .claim _ _ _ => h.request _ _ _ (h.claimOwner _ _)
  | .release _ _ _ => h.request _ _ _ (h.releaseOwner _ _)
  | .beginPayment _ _ _ _ _ _ => h.request _ _ _ (h.beginPaymentOwner _ _ _ _ _)
  | .paymentResult _ _ _ => h.request _ _ _ (h.paymentResultOwner _ _)
  | .reverse _ _ _ _ => h.request _ _ _ (h.reverseOwner _ _ _)
  | .postCash _ _ _ _ _ => h.request _ _ _ (h.postCashOwner _ _ _)
  | .load _ _ _ => h.block _ _ _ _ (h.loadOwner _)
  | .compare _ _ _ => h.block _ _ _ _ (h.compareOwner _)
  | .readTariff _ _ _ _ _ => h.request _ _ _ (h.readTariffOwner _ _ _)
  | .setConfig _ _ x =>
    have sampled : LampsLawful (s.sampleSeal x.sealed) := h
    h.transfer (sampled.admitRequest _ _ _ _ (sampled.setConfigOwner _))
  | .setClock _ _ _ => h.request _ _ _ (h.setClockOwner _)
  | .ackJournal _ _ _ => h.request _ _ _ (h.ackJournalOwner _)
  | .readUnfiled _ _ => h.request _ _ _ h.readUnfiledOwner
  | .signOverride _ _ _ => h.request _ _ _ (h.signOverrideOwner _)
  | .signTestRun _ _ => h.request _ _ _ h.signTestRunOwner
  | .signClear _ _ => h.request _ _ _ h.signClear
  | .setTalkMode _ _ _ => h.request _ _ _ (h.setTalkModeOwner _)
  | .setVolume _ _ _ _ => h.request _ _ _ (h.setVolumeOwner _ _)
  | .setMonitor _ _ _ => h.request _ _ _ (h.setMonitorOwner _)
  | .alarmStandDown _ _ => h.request _ _ _ h.alarmStandDownOwner
  | .setIndicators _ _ _ _ => h.request _ _ _ (h.setIndicatorsOwner _ _)
  | .activate _ _ | .readJournal _ _ _ | .ackUnfiled _ _ _ | .postPrompt _ _ _ | .clearPart _ _ =>
    h.request _ _ _ (checked_keeps (P := LampsLawful) _ id h)
  | .readShift _ _ | .latchCounters _ _ | .setClockRead _ _ | .signOverrideReport _ _ | .signTestReport _ _ | .readIntercom _ _
  | .intercomClear _ _ | .readAlarmLog _ _ | .readIndicators _ _ | .ackNotices _ _ _ | .setNoticeMask _ _ _ | .setStageMask _ _ _ =>
    h.request _ _ _ h
  | .null _ _ => lampsLawfulTo_next (h.admitNull _ _)
  | .writeStart p x =>
    have started : LampsLawful ((s.sampleSeal x.sealed).setReceive p (some [])) := h
    h.transfer (started.receiveBytes _ _)
  | .writeContinue _ x =>
    have sampled : LampsLawful (s.sampleSeal x.sealed) := h
    h.transfer (sampled.receiveBytes _ _)
  | .readFrame _ _ => h.transfer (h.readTransfer _ _)
  | .repeatFrame _ _ => h.transfer h
  | .wheelPulse => h.event h.wheelPulse
  | .totalMetres100m => h.falling h.wheelPulse
  | .tick l => h.event (h.tick l)
  | .fareTick _ | .ambientChange _ | .flashPhase _ | .signTestStep _ | .bookingExpired _ _ | .paymentExpired _ _ _ | .claimExpired _ _
  | .partClearComplete _ | .alarmPress _ => h.tickWith _ _
  | .configWriteComplete => h.event h.configWritten
  | .configWriteFail => h.event h.configWriteFailed
  | .activationDone => h.event h.activationDone
  | .activationFailed => h.event h.activationFailed
  | .totalizerWriteComplete | .totalizerWriteFail => h.event (h.onTotalsWrite _)
  | .journalVerifyPass => h.event (LampsLawful.either h.verifyPass.partClearOn h)
  | .journalVerifyFail => h.event (LampsLawful.either h.verifyFail.partClearOn h)
  | .journalRecoveryStart => h.event h.recoveryStart
  | .journalRecoveryEnd _ => h.event (h.recoveryEnd _)
  | .frontCodecFrame _ | .rearCodecFrame _ => h.event h
  | .promptEnd _ | .chimeEnd _ => h.falling h
  | .rtcSecond => lampsLawfulTo_next h
  | .powerFailWarning => lampsLawfulTo_next h.warned
  | .freeze => lampsLawfulTo_next h.freeze
  | .freezeExit u => lampsLawfulTo_next (by
      split
      · exact LampsLawful.startUp _ _ _
      · exact h)
  | .powerOn u => lampsLawfulTo_next (LampsLawful.startUp _ _ _)

/-- Settles O57: a step takes the front command, and every command keeps the law. -/
theorem everyStepKeepsTheLampLaw : Obligations.EveryStepKeepsTheLampLaw := by
  intro s t law next
  unfold step at next
  split at next
  · injection next with same
    exact same ▸ law
  · rename_i c rest queued
    exact exec_lamps c (s := { s with pending := rest }) law t next

end Sys2Proof.Machine
end

section
/-! The requests of the Sign Driver: SIGN_OVERRIDE, SIGN_TEST and SIGN_CLEAR (R135, R142 to R144), with their statement. -/

namespace Sys2Proof.Machine

/-! ### SIGN_OVERRIDE -/

/-- REPORT is the value 3, and no override. -/
theorem ne_report_of_overrideOf {value : Byte} (listed : (overrideOf value).isSome) : value ≠ 3 := by
  rintro rfl
  exact absurd listed (by decide)

theorem overrideOf_above {value : Byte} (above : 3 < value.toNat) : overrideOf value = none := by
  have differs : ∀ b : Byte, b.toNat ≤ 3 → value ≠ b := by
    rintro b small rfl
    omega
  unfold overrideOf
  rw [if_neg (differs 0 (by decide)), if_neg (differs 1 (by decide)), if_neg (differs 2 (by decide))]

theorem signOverrideOwner_taken {value : Byte} {ov : Override} {s : State} (listed : overrideOf value = some ov)
    (opened : s.shift.state = .opened) :
    signOverrideOwner value s = overrideReply ({ s with sign := { s.sign with override := ov } } : State).rederive .ok := by
  unfold signOverrideOwner
  rw [if_neg (ne_report_of_overrideOf (Option.isSome_of_eq_some listed)), listed]
  exact if_pos opened

theorem signOverrideOwner_shiftState {value : Byte} {s : State} (listed : (overrideOf value).isSome) (closed : s.shift.state ≠ .opened) :
    signOverrideOwner value s = overrideReply s .shiftState := by
  obtain ⟨ov, is⟩ := Option.isSome_iff_exists.1 listed
  unfold signOverrideOwner
  rw [if_neg (ne_report_of_overrideOf listed), is]
  exact if_neg closed

theorem signOverrideOwner_range {value : Byte} (above : 3 < value.toNat) (s : State) :
    signOverrideOwner value s = overrideReply s .range := by
  have other : value ≠ 3 := by
    rintro rfl
    exact absurd above (by decide)
  unfold signOverrideOwner
  rw [if_neg other, overrideOf_above above]

/-! ### SIGN_TEST -/

theorem signTestRunOwner_accepted {s : State} (closed : s.shift.state = .closed) (idle : s.sign.test = none) :
    signTestRunOwner s = testReply { s with sign := s.sign.beginTest } .accepted := by
  simp [signTestRunOwner, firstRefusal, closed, idle]

theorem signTestRunOwner_shiftState {s : State} (opened : s.shift.state ≠ .closed) : signTestRunOwner s = testReply s .shiftState := by
  simp [signTestRunOwner, firstRefusal, opened]

theorem signTestRunOwner_notPermitted {s : State} (closed : s.shift.state = .closed) (running : s.sign.test.isSome) :
    signTestRunOwner s = testReply s .notPermitted := by
  simp [signTestRunOwner, firstRefusal, closed, Option.isSome_iff_ne_none.1 running]

/-! ### SIGN_CLEAR -/

/-- The sign cleared and aimed at the target derived afresh, before the flash of an ACTIVE alarm begins again (R144). -/
def State.clearedSign (s : State) : Sign :=
  Sign.aim { s.sign with lamps := s.sign.lamps.cleared, test := none } s.derivedTarget s.fullLevel

theorem signClear_quiet {s : State} (quiet : s.alarm.state = .quiet) : s.signClear.sign = s.clearedSign :=
  if_neg fun active => absurd (quiet.symm.trans active) (by decide)

theorem signClear_active {s : State} (active : s.alarm.state = .active) : s.signClear.sign = { s.clearedSign with
    flash := some ⟨true, 50⟩
    lamps := { s.clearedSign.lamps with alarm := { s.clearedSign.lamps.alarm with goal := s.fullLevel, level := s.fullLevel } } } :=
  (if_pos active).trans rfl

/-- A clear with the alarm ACTIVE differs from one with it QUIET in the flash and the ALARM lamp alone (R144). -/
theorem signClear_sign (s : State) : ∃ (flash : Option Flash) (goal level : Nat), s.signClear.sign = { s.clearedSign with
    flash := flash
    lamps := { s.clearedSign.lamps with alarm := { s.clearedSign.lamps.alarm with goal := goal, level := level } } } := by
  cases alarm : s.alarm.state with
  | quiet => exact ⟨_, _, _, signClear_quiet alarm⟩
  | active => exact ⟨_, _, _, signClear_active alarm⟩

/-- What SIGN_CLEAR leaves, whatever the alarm (R144). -/
theorem signClear_front (s : State) : (∀ i, i ≠ .alarm → (s.signClear.sign.lamps.get i).level = 0)
    ∧ (∀ i, (s.signClear.sign.lamps.get i).fault = false ∧ (s.signClear.sign.lamps.get i).misses = 0)
    ∧ s.signClear.sign.test = none ∧ s.signClear.sign.target = s.derivedTarget ∧ s.signClear.sign.override = s.sign.override
    ∧ s.signClear.sign.night = s.sign.night ∧ s.signClear.sign.disagree = s.sign.disagree
    ∧ s.signClear.sign.lamps.vacant.goal = (if s.derivedTarget.group = some .vacant then s.fullLevel else 0)
    ∧ s.signClear.sign.lamps.hired.goal = (if s.derivedTarget.group = some .hired then s.fullLevel else 0)
    ∧ s.signClear.sign.lamps.offDuty.goal = (if s.derivedTarget.group = some .offDuty then s.fullLevel else 0)
    ∧ s.signClear.sign.lamps.share.goal = (if s.derivedTarget.share then s.fullLevel else 0) := by
  have goals := aim_goals (x := { s.sign with lamps := s.sign.lamps.cleared, test := none }) rfl s.derivedTarget s.fullLevel
  obtain ⟨flash, goal, level, sign⟩ := signClear_sign s
  rw [sign]
  refine ⟨fun i front => ?_, fun i => ?_, rfl, rfl, rfl, rfl, rfl, goals⟩
  · cases i with
    | alarm => exact absurd rfl front
    | _ => rfl
  · cases i <;> exact ⟨rfl, rfl⟩

/-- Settles O42: each request by its owner's work in each case of its checks; SIGN_CLEAR by the sign it leaves, the ALARM lamp and the
flash apart. -/
theorem signRequestsOverrideTestAndClear : Obligations.SignRequestsOverrideTestAndClear := by
  refine ⟨fun tag value s => ⟨fun ready => ⟨fun ov u listed opened taken => ?_, fun listed closed => ?_, fun above => ?_, ?_⟩,
    fun ready => ⟨?_, fun closed idle => ?_, fun opened => ?_, fun closed running => ?_⟩⟩, fun tag s ready => ?_⟩
  · subst taken
    exact request_answers ready rfl (signOverrideOwner_taken listed opened)
  · exact request_answers ready rfl (signOverrideOwner_shiftState listed closed)
  · exact request_answers ready rfl (signOverrideOwner_range above s)
  · exact request_answers ready rfl rfl
  · exact request_answers ready rfl rfl
  · exact ⟨_, _, request_answers ready rfl (signTestRunOwner_accepted closed idle), rfl, rfl, rfl, rfl, rfl, rfl, rfl, rfl⟩
  · exact request_answers ready rfl (signTestRunOwner_shiftState opened)
  · exact request_answers ready rfl (signTestRunOwner_notPermitted closed running)
  · obtain ⟨dark, clear, test, target, override, night, disagree, vacant, hired, offDuty, share⟩ := signClear_front s
    refine ⟨_, request_answers ready rfl rfl, dark, clear, test, target, override, night, disagree, vacant, hired, offDuty, share,
      fun active => ?_, fun quiet => ?_, rfl, rfl⟩
    · have sign := signClear_active active
      exact ⟨congrArg Sign.flash sign, congrArg (fun x => x.lamps.alarm.level) sign⟩
    · exact congrArg (fun x => x.lamps.alarm.level) (signClear_quiet quiet)

end Sys2Proof.Machine
end

section
/-! Lamp checks and what they tell (R140, R141). -/

namespace Sys2Proof.Machine

theorem check_high {x : Lamp} (lit : 8 ≤ x.level) : x.check true = { x with misses := 0, fault := false } := by
  simp [Lamp.check, Nat.not_lt.2 lit]

theorem check_miss {x : Lamp} (lit : 8 ≤ x.level) (few : x.misses < 2) : x.check false = { x with misses := x.misses + 1 } := by
  have counted : min (x.misses + 1) 3 = x.misses + 1 := by omega
  simp [Lamp.check, Nat.not_lt.2 lit, counted, Nat.not_le.2 few]

theorem check_third {x : Lamp} (lit : 8 ≤ x.level) (two : 2 ≤ x.misses) : x.check false = { x with misses := 3, fault := true } := by
  simp [Lamp.check, Nat.not_lt.2 lit, two]

theorem newFault_iff (before after : Lamp) : newFault before after = true ↔ after.fault = true ∧ before.fault = false := by
  simp [newFault]

theorem newFrontFault_iff (l m : Lamps) :
    newFrontFault l m = true ↔ ∃ i, i ≠ .alarm ∧ (m.get i).fault = true ∧ (l.get i).fault = false := by
  simp only [newFrontFault, Bool.or_eq_true, newFault_iff]
  constructor
  · rintro (((vacant | hired) | offDuty) | share)
    · exact ⟨.vacant, nofun, vacant⟩
    · exact ⟨.hired, nofun, hired⟩
    · exact ⟨.offDuty, nofun, offDuty⟩
    · exact ⟨.share, nofun, share⟩
  · rintro ⟨i, front, new⟩
    cases i with
    | vacant => exact .inl (.inl (.inl new))
    | hired => exact .inl (.inl (.inr new))
    | offDuty => exact .inl (.inr new)
    | share => exact .inr new
    | alarm => exact absurd rfl front

/-- The lamps checked, before anything is told. -/
def State.withChecked (s : State) (b : LampBits) : State := { s with sign := { s.sign with lamps := s.sign.lamps.check b } }

/-- SIGN_FAULT to the Console and Fleet ports for a front lamp (R141). -/
def State.frontTold (s : State) (b : LampBits) : State :=
  if newFrontFault s.sign.lamps (s.sign.lamps.check b) then (s.withChecked b).notifyConsoleFleet .signFault else s.withChecked b

theorem checkLamps_eq (s : State) (b : LampBits) : s.checkLamps b =
    if newFault s.sign.lamps.alarm (s.sign.lamps.alarm.check b.alarm) then (s.frontTold b).notify .fleet .signFault
    else s.frontTold b := rfl

theorem frontTold_told (s : State) (b : LampBits) : PLe s.ports (s.frontTold b).ports := by
  unfold State.frontTold
  split
  · exact ((soft_notify (s.withChecked b) .console .signFault).trans (soft_notify _ .fleet .signFault)).p
  · exact PLe.refl _

theorem alarmTold_told (s : State) (b : LampBits) : PLe (s.frontTold b).ports (s.checkLamps b).ports := by
  rw [checkLamps_eq]
  split
  · exact (soft_notify _ _ _).p
  · exact PLe.refl _

theorem checkLamps_told (s : State) (b : LampBits) : PLe s.ports (s.checkLamps b).ports :=
  (frontTold_told s b).trans (alarmTold_told s b)

/-- A front lamp's flag set from clear is told to the Console and Fleet ports (R141). -/
theorem checkLamps_front {s : State} {b : LampBits} (new : newFrontFault s.sign.lamps (s.sign.lamps.check b) = true) :
    ((s.checkLamps b).port .console).holds .signFault = true ∧ ((s.checkLamps b).port .fleet).holds .signFault = true := by
  obtain ⟨console, fleet⟩ := notifyConsoleFleet_holds (s.withChecked b) .signFault
  have told : s.frontTold b = (s.withChecked b).notifyConsoleFleet .signFault := if_pos new
  rw [← told] at console fleet
  exact ⟨alarmTold_told s b _ _ console, alarmTold_told s b _ _ fleet⟩

/-- The ALARM lamp's flag set from clear is told to the Fleet port (R141). -/
theorem checkLamps_alarm {s : State} {b : LampBits} (new : newFault s.sign.lamps.alarm (s.sign.lamps.alarm.check b.alarm) = true) :
    ((s.checkLamps b).port .fleet).holds .signFault = true := by
  rw [checkLamps_eq, if_pos new]
  exact add_self _ _

/-- With no new fault of a front lamp the Console port is told nothing (R141). -/
theorem checkLamps_console {s : State} {b : LampBits} (noNew : newFrontFault s.sign.lamps (s.sign.lamps.check b) = false) :
    (s.checkLamps b).port .console = s.port .console := by
  have untold : s.frontTold b = s.withChecked b := if_neg (by simp [noNew])
  rw [checkLamps_eq, untold]
  split <;> rfl

theorem checkLamps_payment (s : State) (b : LampBits) : (s.checkLamps b).port .payment = s.port .payment := by
  rw [checkLamps_eq]
  unfold State.frontTold
  split <;> split <;> rfl

end Sys2Proof.Machine
end

section
/-! The ambient value, the flash and the sign test at their ticks (R136, R139, R143): what stands on the sign once the test has had its
turn, what of it outlasts the rest of the tick, and the statement. -/

namespace Sys2Proof.Machine

/-! ### The sign up to its test -/

theorem alarmLevel_idle {x : Sign} (idle : x.test = none) (level : Nat) :
    x.alarmLevel level = { x with lamps := { x.lamps with alarm := { x.lamps.alarm with goal := level, level := level } } } := by
  unfold Sign.alarmLevel
  rw [idle]

theorem alarmLevel_flash (x : Sign) (level : Nat) : (x.alarmLevel level).flash = x.flash := by
  unfold Sign.alarmLevel
  split <;> rfl

theorem fullLevelChanged_flash (s : State) : s.fullLevelChanged.sign.flash = s.sign.flash := by
  obtain ⟨-, aimed⟩ := aim_alarm s.sign s.sign.target s.fullLevel
  unfold State.fullLevelChanged
  dsimp only
  split
  · exact (alarmLevel_flash _ _).trans aimed
  · exact aimed

theorem readAmbient_flash (s : State) (night : Bool) : (s.readAmbient night).sign.flash = s.sign.flash := by
  unfold State.readAmbient
  split
  · rfl
  · split
    · exact fullLevelChanged_flash _
    · rfl

theorem rampTick_flash (s : State) : s.rampTick.sign.flash = s.sign.flash := by
  rw [rampTick_eq]

theorem rampTick_test (s : State) : s.rampTick.sign.test = s.sign.test := by
  rw [rampTick_eq]

theorem flashed_test (s : State) : s.flashed.sign.test = s.sign.test := by
  obtain ⟨-, held⟩ := flashed_out s
  exact held.test.trans (ambientRead_test _ _)

theorem readAmbient_test (s : State) (night : Bool) : (s.readAmbient night).sign.test = s.sign.test := by
  obtain ⟨-, held⟩ := readAmbient_held s night
  exact held.test.trans (ambientRead_test _ _)

/-- A step of the ramp is set aside while a test runs (R143). -/
theorem flashed_levels {s : State} {x : SignTest} (test : s.sign.test = some x) {i : LampId} (front : i ≠ .alarm) :
    (s.flashed.sign.lamps.get i).level = (s.sign.lamps.get i).level := by
  obtain ⟨-, held⟩ := flashed_out s
  have unramped : s.rampTick.sign.lamps = s.sign.lamps := by
    rw [rampTick_eq]
    exact if_neg (by simp [test])
  rw [held.front.level front, unramped]

/-! ### The goals of the target -/

/-- No test runs, and the front lamps have the goals of the target (R134). -/
structure Sign.Aims (x : Sign) (full : Nat) : Prop where
  idle : x.test = none
  vacant : x.lamps.vacant.goal = (if x.target.group = some .vacant then full else 0)
  hired : x.lamps.hired.goal = (if x.target.group = some .hired then full else 0)
  offDuty : x.lamps.offDuty.goal = (if x.target.group = some .offDuty then full else 0)
  share : x.lamps.share.goal = (if x.target.share then full else 0)

theorem aim_aims {x : Sign} (idle : x.test = none) (t : Target) (full : Nat) : (x.aim t full).Aims full := by
  obtain ⟨vacant, hired, offDuty, share⟩ := aim_goals idle t full
  obtain ⟨-, -, test⟩ := aim_kept x t full
  refine ⟨test.trans idle, ?_, ?_, ?_, ?_⟩ <;> rw [aim_target]
  · exact vacant
  · exact hired
  · exact offDuty
  · exact share

theorem Sign.Aims.withFlash {x : Sign} {full : Nat} (h : x.Aims full) (f : Option Flash) : ({ x with flash := f } : Sign).Aims full :=
  ⟨h.idle, h.vacant, h.hired, h.offDuty, h.share⟩

theorem Sign.Aims.alarmLevel {x : Sign} {full : Nat} (h : x.Aims full) (level : Nat) : (x.alarmLevel level).Aims full := by
  rw [alarmLevel_idle h.idle]
  exact ⟨h.idle, h.vacant, h.hired, h.offDuty, h.share⟩

theorem Sign.Aims.flashTick {x : Sign} {full : Nat} (h : x.Aims full) (level : Nat) : (x.flashTick level).Aims full := by
  unfold Sign.flashTick
  split
  · exact h
  · split
    · exact (h.withFlash _).alarmLevel _
    · exact h.withFlash _

/-- A new full level is the goal of the front lamps in the target (R136). -/
theorem fullLevelChanged_aims {s : State} (idle : s.sign.test = none) : s.fullLevelChanged.sign.Aims s.fullLevel := by
  have aimed := aim_aims idle s.sign.target s.fullLevel
  unfold State.fullLevelChanged
  dsimp only
  split
  · exact aimed.alarmLevel _
  · exact aimed

/-! ### The rest of the tick -/

/-- The full level follows the ambient value and the configuration (R136). -/
theorem fullLevel_kept {s t : State} (night : t.sign.night = s.sign.night) (tariffs : t.tariffs = s.tariffs) :
    t.fullLevel = s.fullLevel := by
  unfold State.fullLevel
  rw [night, tariffs]

/-- What a sign keeps under a full level, whatever the lamp checks find and whichever target is derived. -/
structure Lasting (Q : Sign → Nat → Prop) : Prop where
  checked : ∀ x full b, Q x full → Q { x with lamps := x.lamps.check b } full
  aimed : ∀ x full t, Q x full → Q (x.aim t full) full

/-- What a state keeps of its sign under its own full level. -/
def OfSign (Q : Sign → Nat → Prop) (s : State) : Prop := Q s.sign s.fullLevel

theorem OfSign.intro {Q : Sign → Nat → Prop} {t : State} {x : Sign} {full : Nat} (h : Q x full) (sign : t.sign = x)
    (level : t.fullLevel = full) : OfSign Q t := by
  unfold OfSign
  rw [sign, level]
  exact h

theorem OfSign.of_same {Q : Sign → Nat → Prop} {s t : State} (h : OfSign Q s) (sign : t.sign = s.sign) (tariffs : t.tariffs = s.tariffs) :
    OfSign Q t := .intro h sign (fullLevel_kept (congrArg Sign.night sign) tariffs)

namespace Lasting

variable {Q : Sign → Nat → Prop} (lasting : Lasting Q)
include lasting

theorem filed : Filed (OfSign Q) where
  hires _ _ h := h
  ports _ _ h := h
  shift _ _ _ _ h := h
  journal _ _ _ h := h
  derive s h := by
    rcases rederive_cases s with same | aimed
    · rw [same]
      exact h
    · obtain ⟨-, night, -⟩ := aim_kept s.sign s.derivedTarget s.fullLevel
      rw [aimed]
      exact .intro (lasting.aimed _ _ _ h) rfl (fullLevel_kept night rfl)

theorem checkLamps {s : State} (h : OfSign Q s) (b : LampBits) : OfSign Q (s.checkLamps b) := by
  obtain ⟨only, checked⟩ := checkLamps_out s b
  exact .intro (lasting.checked _ _ _ h) checked (fullLevel_kept (by rw [checked]) (by rw [only]))

end Lasting

theorem OfSign.intercomTick {Q : Sign → Nat → Prop} {s : State} (h : OfSign Q s) : OfSign Q s.intercomTick := by
  obtain ⟨only, sign, -⟩ := intercomTick_out s
  exact h.of_same sign (by rw [only])

/-- A press that finds the alarm QUIET begins the flash (R167); the others leave the sign. -/
theorem OfSign.alarmTick {Q : Sign → Nat → Prop} {s : State} (h : OfSign Q s)
    (pressed : s.alarm.pressTaken s.pins.alarm = true → ∀ x full, Q x full → Q (x.flashOn full) full) : OfSign Q s.alarmTick := by
  unfold State.alarmTick
  dsimp only
  split
  · rename_i taken
    unfold State.alarmPress
    split
    · obtain ⟨-, night, -⟩ := alarmLevel_kept { s.sign with flash := some ⟨true, 50⟩ } s.fullLevel
      exact .intro (pressed taken _ _ h) rfl (fullLevel_kept night rfl)
    · exact h
  · exact h

/-- A tick up to the end of the sign test's work on it. -/
def tested (l : Lines) (s : State) : State := (State.flashed { s with pins := l, timeBase := s.nextCount }).testTick

/-- The sign's tick, its lamp checks among it at a fare tick. -/
theorem signTick_tested (l : Lines) (s : State) :
    State.signTick { s with pins := l, timeBase := s.nextCount } s.fareNext
      = if s.fareNext then (tested l s).checkLamps (tested l s).pins.sense else tested l s := rfl

theorem preTick_signTick (l : Lines) (s : State) :
    preTick l s = ((State.signTick { s with pins := l, timeBase := s.nextCount } s.fareNext).intercomTick).alarmTick := rfl

/-- What lasts, and outlasts a press if one is taken, stands at the end of the tick if it stands after the sign test. -/
theorem Lasting.tick {Q : Sign → Nat → Prop} (lasting : Lasting Q) {l : Lines} {s : State} (idle : s.partClear = .idle)
    (pressed : s.alarm.pressTaken l.alarm = true → ∀ x full, Q x full → Q (x.flashOn full) full) (h : OfSign Q (tested l s)) :
    OfSign Q (s.tick l) := by
  obtain ⟨a, ha⟩ : ∃ a : State, a = State.signTick { s with pins := l, timeBase := s.nextCount } s.fareNext := ⟨_, rfl⟩
  have signed : OfSign Q a := by
    rw [ha, signTick_tested]
    split
    · exact lasting.checkLamps h _
    · exact h
  have line : a.intercomTick.alarm.pressTaken a.intercomTick.pins.alarm = s.alarm.pressTaken l.alarm := by
    obtain ⟨signOnly, -⟩ := signTick_out { s with pins := l, timeBase := s.nextCount } s.fareNext
    obtain ⟨talkOnly, -⟩ := intercomTick_out a
    rw [← ha] at signOnly
    rw [talkOnly, signOnly]
  have before : OfSign Q (preTick l s) := by
    rw [preTick_signTick, ← ha]
    exact signed.intercomTick.alarmTick (line ▸ pressed)
  rw [tick_idle l idle]
  unfold ticked
  split
  · exact lasting.filed.fareWork before
  · exact before

/-- A notice told up to the end of the sign test is told at the end of the tick. -/
theorem tick_told {l : Lines} {s : State} (idle : s.partClear = .idle) : PLe (tested l s).ports (s.tick l).ports := by
  have signed : PLe (tested l s).ports (State.signTick { s with pins := l, timeBase := s.nextCount } s.fareNext).ports := by
    rw [signTick_tested]
    split
    · exact checkLamps_told _ _
    · exact PLe.refl _
  have before : PLe (tested l s).ports (preTick l s).ports :=
    signed.trans ((soft_icomTick _).trans (soft_alarmTick _)).p
  rw [tick_idle l idle]
  exact before.trans (ticked_told l s)

/-! ### What lasts -/

theorem lasting_aims : Lasting fun x full => x.Aims full where
  checked x full b h := by
    obtain ⟨idle, vacant, hired, offDuty, share⟩ := h
    refine ⟨idle, ?_, ?_, ?_, ?_⟩
    · exact (check_kept _ _).2.trans vacant
    · exact (check_kept _ _).2.trans hired
    · exact (check_kept _ _).2.trans offDuty
    · exact (check_kept _ _).2.trans share
  aimed x full t h := aim_aims h.idle t full

theorem flashOn_held (x : Sign) (full : Nat) : SignHeld x (x.flashOn full) := (withFlash_held x _).trans (alarmLevel_held _ _)

/-- The levels of the front lamps. -/
theorem lasting_levels (n : LampId → Nat) : Lasting fun x _ => ∀ i, i ≠ .alarm → (x.lamps.get i).level = n i where
  checked x _ b h i front := (check_level x.lamps b i).trans (h i front)
  aimed x full t h i front := (aim_levels x t full i).trans (h i front)

/-- A test running, and its lamp at a level if that is the ALARM lamp. -/
theorem lasting_test (t : SignTest) (n : Nat) :
    Lasting fun x _ => x.test = some t ∧ (t.lamp = .alarm → x.lamps.alarm.level = n) where
  checked _ _ _ := fun ⟨running, level⟩ => ⟨running, fun last => (check_kept _ _).1.trans (level last)⟩
  aimed x full t := fun ⟨running, level⟩ => by
    obtain ⟨-, -, test⟩ := aim_kept x t full
    exact ⟨test.trans running, fun last => (aim_levels x t full .alarm).trans (level last)⟩

/-- The flash and the level of the ALARM lamp that goes with it. -/
theorem lasting_flash (f : Option Flash) (level : Nat → Nat) :
    Lasting fun x full => x.flash = f ∧ x.lamps.alarm.level = level full where
  checked _ _ _ := fun ⟨first, level⟩ => ⟨first, (check_kept _ _).1.trans level⟩
  aimed x full t h := by
    obtain ⟨alarm, flash⟩ := aim_alarm x t full
    rw [alarm, flash]
    exact h

/-- No test running, and the ALARM lamp at the level of its flash (R139, R143). -/
theorem lasting_shown : Lasting fun x full => x.test = none ∧ x.lamps.alarm.level = x.flashLevel full where
  checked _ _ _ := fun ⟨first, level⟩ => ⟨first, (check_kept _ _).1.trans level⟩
  aimed x full t h := by
    obtain ⟨-, -, test⟩ := aim_kept x t full
    obtain ⟨alarm, flash⟩ := aim_alarm x t full
    unfold Sign.flashLevel
    rw [test, alarm, flash]
    exact h

end Sys2Proof.Machine
end

section
/-! The ticks at which the ambient value turns, a flash phase runs out or a step of the sign test ends (R136, R139, R143), with the
statement on the sign's checks, flash and test. -/

namespace Sys2Proof.Machine

/-! ### The ambient value turns -/

theorem ambientTurns_of {x : Sign} {night : Bool} (differs : night ≠ x.night) (long : 99 ≤ x.disagree) : ambientTurns x night = true := by
  simp [ambientTurns, Ne.symm differs, long]

theorem readAmbient_turns {s : State} {night : Bool} (differs : night ≠ s.sign.night) (long : 99 ≤ s.sign.disagree) :
    s.readAmbient night = State.fullLevelChanged { s with sign := { s.sign with night := night, disagree := 0 } } :=
  (if_neg (Ne.symm differs)).trans (if_pos (ambientTurns_of differs long))

theorem ambientRead_turns {x : Sign} {night : Bool} (differs : night ≠ x.night) (long : 99 ≤ x.disagree) :
    x.ambientRead night = { x with night := night, disagree := 0 } :=
  (if_neg (Ne.symm differs)).trans (if_pos (ambientTurns_of differs long))

theorem flashed_fullLevel (s : State) : s.flashed.fullLevel = (s.rampTick.readAmbient s.pins.night).fullLevel :=
  fullLevel_kept (flashTick_held _ _).night rfl

theorem testTick_idle {s : State} (idle : s.sign.test = none) : s.testTick = s := by
  unfold State.testTick
  rw [idle]

theorem tested_idle {l : Lines} {s : State} (idle : s.sign.test = none) :
    tested l s = State.flashed { s with pins := l, timeBase := s.nextCount } :=
  testTick_idle ((flashed_test _).trans idle)

/-- The hundredth disagreeing reading leaves the front lamps aimed at the target under the new full level (R136). -/
theorem tested_turned {l : Lines} {s : State} (idle : s.sign.test = none) (differs : l.night ≠ s.sign.night)
    (long : 99 ≤ s.sign.disagree) : OfSign (fun x full => x.Aims full) (tested l s) := by
  obtain ⟨r, hr⟩ : ∃ r : State, r = State.rampTick { s with pins := l, timeBase := s.nextCount } := ⟨_, rfl⟩
  have ramped : r.sign = { s.sign with lamps := r.sign.lamps } := by
    rw [hr, rampTick_eq]
  have turns : r.readAmbient l.night = State.fullLevelChanged { r with sign := { r.sign with night := l.night, disagree := 0 } } :=
    readAmbient_turns (by rw [ramped]; exact differs) (by rw [ramped]; exact long)
  have aims : (r.readAmbient l.night).sign.Aims (r.readAmbient l.night).fullLevel := by
    obtain ⟨only, night⟩ := fullLevelChanged_out { r with sign := { r.sign with night := l.night, disagree := 0 } }
    rw [turns, fullLevel_kept night (by rw [only])]
    exact fullLevelChanged_aims (by rw [ramped]; exact idle)
  rw [hr] at aims
  rw [tested_idle idle]
  exact .intro (aims.flashTick _) rfl (flashed_fullLevel _)

/-! ### A flash phase runs out -/

theorem flashTick_turns {x : Sign} {f : Flash} (idle : x.test = none) (flash : x.flash = some f) (last : f.left ≤ 1) (full : Nat) :
    (x.flashTick full).flash = some ⟨!f.on, 50⟩ ∧ (x.flashTick full).lamps.alarm.level = if f.on then 0 else full := by
  have ends : f.ends = true := decide_eq_true last
  have turned : x.flashTick full = ({ x with flash := some ⟨!f.on, 50⟩ } : Sign).alarmLevel (if f.on then 0 else full) := by
    unfold Sign.flashTick
    rw [flash]
    exact if_pos ends
  rw [turned, alarmLevel_idle (x := { x with flash := some ⟨!f.on, 50⟩ }) idle]
  exact ⟨rfl, rfl⟩

theorem tested_flash {l : Lines} {s : State} {f : Flash} (idle : s.sign.test = none) (flash : s.sign.flash = some f) (last : f.left ≤ 1) :
    OfSign (fun x full => x.flash = some ⟨!f.on, 50⟩ ∧ x.lamps.alarm.level = if f.on then 0 else full) (tested l s) := by
  rw [tested_idle idle]
  refine .intro (flashTick_turns ?_ ?_ last _) rfl (flashed_fullLevel _)
  · exact (readAmbient_test _ _).trans ((rampTick_test _).trans idle)
  · exact (readAmbient_flash _ _).trans ((rampTick_flash _).trans flash)

/-! ### A step of the sign test ends -/

theorem testTick_steps {s : State} {x : SignTest} {i : LampId} (test : s.sign.test = some x) (last : x.left ≤ 1)
    (next : x.lamp.next = some i) : s.testTick = { s with sign := s.sign.stepTest x.lamp i } := by
  have ends : x.ends = true := decide_eq_true last
  unfold State.testTick
  rw [test]
  dsimp only
  rw [if_pos ends, next]

theorem testTick_ends {s : State} {x : SignTest} (test : s.sign.test = some x) (last : x.left ≤ 1) (final : x.lamp = .alarm) :
    s.testTick = State.notify { s with sign := s.sign.endTest s.fullLevel } .fleet .signTestDone := by
  have ends : x.ends = true := decide_eq_true last
  unfold State.testTick
  rw [test]
  dsimp only
  rw [if_pos ends, final]
  rfl

theorem next_ne {tested following : LampId} (next : tested.next = some following) : tested ≠ following := by
  rintro rfl
  cases tested <;> exact absurd next (by decide)

theorem stepTest_levels (x : Sign) {i j : LampId} (next : i.next = some j) :
    ((x.stepTest i j).lamps.get i).level = 0 ∧ ((x.stepTest i j).lamps.get j).level = 15 := by
  have lamps : (x.stepTest i j).lamps = (x.lamps.setLevel i 0).setLevel j 15 := rfl
  rw [lamps, setLevel_level, setLevel_level, setLevel_level, if_neg (next_ne next), if_pos rfl, if_pos rfl]
  exact ⟨rfl, rfl⟩

/-- The test's own step holds the ALARM lamp (R143). -/
theorem alarmLevel_tested {x : Sign} {t : SignTest} (test : x.test = some t) (final : t.lamp = .alarm) (level : Nat) :
    x.alarmLevel level = x := by
  obtain ⟨lamp, left⟩ := t
  obtain rfl : lamp = .alarm := final
  unfold Sign.alarmLevel
  rw [test]

/-- A press leaves a running test and the ALARM lamp of its last step. -/
theorem flashOn_testing {x : Sign} {t : SignTest} {n : Nat} (test : x.test = some t) (level : t.lamp = .alarm → x.lamps.alarm.level = n)
    (full : Nat) : (x.flashOn full).test = some t ∧ (t.lamp = .alarm → (x.flashOn full).lamps.alarm.level = n) := by
  refine ⟨(flashOn_held x full).test.trans test, fun final => ?_⟩
  unfold Sign.flashOn
  rw [alarmLevel_tested (x := { x with flash := some ⟨true, 50⟩ }) test final]
  exact level final

theorem endTest_held (x : Sign) (full : Nat) : SignHeld { x with test := none } (x.endTest full) :=
  (alarmLevel_held _ _).trans (aim_held _ _ _)

theorem endTest_aims (x : Sign) (full : Nat) : (x.endTest full).Aims full := by
  obtain ⟨-, -, test⟩ := alarmLevel_kept { x with test := none } (Sign.flashLevel { x with test := none } full)
  exact aim_aims test _ _

/-- At the end of the test the ALARM lamp returns to its flash or to 0 (R143). -/
theorem endTest_shown (x : Sign) (full : Nat) :
    (x.endTest full).test = none ∧ (x.endTest full).lamps.alarm.level = (x.endTest full).flashLevel full := by
  obtain ⟨y, hy⟩ : ∃ y : Sign, y = Sign.alarmLevel { x with test := none } (Sign.flashLevel { x with test := none } full) := ⟨_, rfl⟩
  have ended : x.endTest full = y.aim x.target full := by
    rw [hy]
    rfl
  rw [alarmLevel_idle rfl] at hy
  obtain ⟨alarm, flash⟩ := aim_alarm y x.target full
  refine ⟨(endTest_held x full).test, ?_⟩
  unfold Sign.flashLevel
  rw [ended, alarm, flash, hy]
  rfl

theorem flashOn_shown {x : Sign} (idle : x.test = none) (full : Nat) :
    (x.flashOn full).test = none ∧ (x.flashOn full).lamps.alarm.level = (x.flashOn full).flashLevel full := by
  unfold Sign.flashOn
  rw [alarmLevel_idle (x := { x with flash := some ⟨true, 50⟩ }) idle]
  exact ⟨idle, rfl⟩

/-! ### The test after the tick -/

/-- Past the sign test a tick moves no front lamp's level. -/
theorem tick_front {l : Lines} {s : State} (idle : s.partClear = .idle) {i : LampId} (front : i ≠ .alarm) :
    ((s.tick l).sign.lamps.get i).level = ((tested l s).sign.lamps.get i).level :=
  (lasting_levels fun j => ((tested l s).sign.lamps.get j).level).tick idle
    (fun _ x full h _ front => ((flashOn_held x full).front.level front).trans (h _ front)) (fun _ _ => rfl) i front

/-- Past the sign test a tick keeps a running test, and the ALARM lamp in its own step. -/
theorem tick_testing {l : Lines} {s : State} (idle : s.partClear = .idle) {t : SignTest} (test : (tested l s).sign.test = some t) :
    (s.tick l).sign.test = some t
      ∧ (t.lamp = .alarm → (s.tick l).sign.lamps.alarm.level = (tested l s).sign.lamps.alarm.level) :=
  (lasting_test t _).tick idle (fun _ _ full ⟨running, level⟩ => flashOn_testing running level full) ⟨test, fun _ => rfl⟩

/-- A step of the sign test other than the last ends (R143). -/
theorem tick_testSteps {l : Lines} {x : SignTest} {i : LampId} {s : State} (idle : s.partClear = .idle) (test : s.sign.test = some x)
    (last : x.left ≤ 1) (next : x.lamp.next = some i) : (s.tick l).sign.test = some ⟨i, 100⟩
      ∧ ((s.tick l).sign.lamps.get x.lamp).level = 0 ∧ ((s.tick l).sign.lamps.get i).level = 15 := by
  have steps : (tested l s).sign = Sign.stepTest _ x.lamp i :=
    congrArg State.sign (testTick_steps ((flashed_test { s with pins := l, timeBase := s.nextCount }).trans test) last next)
  obtain ⟨dark, lit⟩ := stepTest_levels (State.flashed { s with pins := l, timeBase := s.nextCount }).sign next
  obtain ⟨running, held⟩ := tick_testing idle (congrArg Sign.test steps)
  have testedFront : x.lamp ≠ .alarm := fun is => by
    rw [is] at next
    cases next
  refine ⟨running, ?_, ?_⟩
  · rw [tick_front idle testedFront, steps]
    exact dark
  · by_cases final : i = .alarm
    · subst final
      refine (held rfl).trans ?_
      rw [steps]
      exact lit
    · rw [tick_front idle final, steps]
      exact lit

/-- The last step of the sign test ends (R143). -/
structure TestEnded (s t : State) : Prop where
  shown : t.sign.test = none ∧ t.sign.lamps.alarm.level = t.sign.flashLevel t.fullLevel
  told : (t.port .fleet).holds .signTestDone = true
  front : ∀ i, i ≠ .alarm → (t.sign.lamps.get i).level = (s.sign.lamps.get i).level
  aims : t.sign.Aims t.fullLevel

theorem tick_testEnds {l : Lines} {x : SignTest} {s : State} (idle : s.partClear = .idle) (test : s.sign.test = some x)
    (last : x.left ≤ 1) (final : x.lamp = .alarm) : TestEnded s (s.tick l) := by
  obtain ⟨f, hf⟩ : ∃ f : State, f = State.flashed { s with pins := l, timeBase := s.nextCount } := ⟨_, rfl⟩
  have running : f.sign.test = some x := hf ▸ (flashed_test _).trans test
  have ends : tested l s = State.notify { f with sign := f.sign.endTest f.fullLevel } .fleet .signTestDone := by
    unfold tested
    rw [← hf]
    exact testTick_ends running last final
  have level : (tested l s).fullLevel = f.fullLevel := by
    rw [ends]
    exact fullLevel_kept (endTest_held f.sign f.fullLevel).night rfl
  have sign : (tested l s).sign = f.sign.endTest f.fullLevel := congrArg State.sign ends
  refine ⟨lasting_shown.tick idle (fun _ _ full ⟨ended, _⟩ => flashOn_shown ended full) (.intro (endTest_shown _ _) sign level), ?_,
    fun i front => ?_, lasting_aims.tick idle (fun _ _ _ h => (h.withFlash _).alarmLevel _) (.intro (endTest_aims _ _) sign level)⟩
  · refine tick_told idle .fleet .signTestDone ?_
    rw [ends]
    exact add_self _ _
  · rw [tick_front idle front, sign, (endTest_held f.sign f.fullLevel).front.level front, hf]
    exact flashed_levels (s := { s with pins := l, timeBase := s.nextCount }) test front

/-! ### The statement -/

/-- Settles O43: a lamp check by its branches and what it tells; each tick by what stands after the sign test and lasts to its end. -/
theorem theSignChecksFlashesAndTests : Obligations.TheSignChecksFlashesAndTests := by
  refine ⟨⟨fun x high => ⟨fun dim => if_pos dim, check_high, check_miss, check_third⟩, fun s b => ⟨_, rfl, ?_⟩⟩,
    fun l s run idle untested released => ⟨fun differs long => ?_, fun f flash last => ?_⟩,
    fun l x s run idle test last => ⟨fun i next => ?_, fun final => ?_⟩⟩
  · obtain ⟨only, sign⟩ := checkLamps_out s b
    have lamps : (s.checkLamps b).sign.lamps = s.sign.lamps.check b := congrArg Sign.lamps sign
    rw [lamps]
    refine ⟨fun i front clear set => checkLamps_front ((newFrontFault_iff _ _).2 ⟨i, front, set, clear⟩),
      fun clear set => checkLamps_alarm ((newFault_iff _ _).2 ⟨set, clear⟩), fun noNew => checkLamps_console ?_,
      checkLamps_payment s b, ?_⟩
    · rw [Bool.eq_false_iff, Ne, newFrontFault_iff]
      rintro ⟨i, front, set, clear⟩
      exact absurd (noNew i front set) (by simp [clear])
    · rw [← sign]
      exact only
  · obtain ⟨sign, -⟩ := tick_out l idle
    obtain ⟨night, disagree⟩ := sign.ambient
    obtain ⟨-, -, -, -, -, -, -, -, -, config, -⟩ := tick_kept l s
    have turned : ({ s with pins := l, timeBase := s.nextCount } : State).sign.ambientRead l.night
        = { s.sign with night := l.night, disagree := 0 } := ambientRead_turns differs long
    rw [turned] at night disagree
    have aims : (s.tick l).sign.Aims (s.tick l).fullLevel :=
      lasting_aims.tick idle (fun _ _ _ h => (h.withFlash _).alarmLevel _) (tested_turned untested differs long)
    refine ⟨s.tick l, congrArg Host.Outcome.next (mk_tickWith run (ambientTurns_of differs long)), night, disagree, ?_, aims.vacant,
      aims.hired, aims.offDuty, aims.share⟩
    unfold State.fullLevel
    rw [night, config]
  · have falls : s.phaseEnds = true := by simp [State.phaseEnds, flash, Flash.ends, last]
    exact ⟨s.tick l, congrArg Host.Outcome.next (mk_tickWith run falls),
      (lasting_flash _ fun full => if f.on then 0 else full).tick idle (fun pressed => absurd pressed (by simp [released]))
        (tested_flash untested flash last)⟩
  · have falls : s.testStepEnds = true := by simp [State.testStepEnds, test, SignTest.ends, last]
    exact ⟨s.tick l, congrArg Host.Outcome.next (mk_tickWith run falls), tick_testSteps idle test last next⟩
  · have falls : s.testStepEnds = true := by simp [State.testStepEnds, test, SignTest.ends, last]
    obtain ⟨⟨ended, shown⟩, told, front, aims⟩ := tick_testEnds (l := l) idle test last final
    exact ⟨s.tick l, congrArg Host.Outcome.next (mk_tickWith run falls), ended, told, front, aims.vacant, aims.hired, aims.offDuty,
      aims.share, shown.trans rfl⟩

end Sys2Proof.Machine
end

section
/-! The elastic buffer, the gains and the tones (R146 to R150, R158): what a write, a read and a ramp step make of a path, each said once,
with their statement. -/

namespace Sys2Proof.Machine

/-! ### The elastic buffer -/

theorem updatePeak_eq (x : Path) : x.updatePeak = { x with peak := if x.centring then x.peak else max x.peak x.distance } := by
  unfold Path.updatePeak
  split <;> rfl

/-- A write touches the samples, the overflow slips and the peak (R146). -/
theorem write_eq (x : Path) (v : Sample) : x.write v = { x with
    buffer := (if x.depth ≤ x.buffer.length then x.buffer.drop 1 else x.buffer) ++ [v]
    overflows := if x.depth ≤ x.buffer.length then countSlip x.overflows else x.overflows
    peak := if x.centring then x.peak else max x.peak (x.write v).distance } := by
  unfold Path.write
  split <;> (rw [updatePeak_eq]; rfl)

/-- The peak is brought up to date with the fill that a write leaves, while the path does not centre (R148). -/
theorem write_peak (x : Path) (v : Sample) :
    (x.write v).peak = if x.centring then x.peak else max x.peak (x.write v).distance := by
  conv_lhs => rw [write_eq]

/-- A path that centres below half full gives 0 and takes nothing (R147). -/
theorem read_held {x : Path} (centring : x.centring = true) (below : x.buffer.length < x.depth / 2) : x.read = (0, x) := by
  unfold Path.read
  rw [if_pos (by simp [centring, below])]

/-- Otherwise centring is over and a sample is taken (R147). -/
theorem read_taken {x : Path} (ready : x.centring = false ∨ x.depth / 2 ≤ x.buffer.length) :
    x.read = ({ x with centring := false } : Path).take := by
  unfold Path.read
  rw [if_neg]
  rcases ready with centred | filled
  · simp [centred]
  · simp [Nat.not_lt.2 filled]

theorem read_cases (x : Path) : x.read = (0, x) ∨ x.read = ({ x with centring := false } : Path).take := by
  unfold Path.read
  split
  · exact .inl rfl
  · exact .inr rfl

/-- The oldest sample is taken and becomes the last one (R147). -/
theorem take_cons {x : Path} {v : Sample} {rest : List Sample} (queued : x.buffer = v :: rest) :
    x.take = (v, { x with buffer := rest, last := v, peak := x.take.2.peak }) := by
  unfold Path.take
  rw [queued]
  simp only [updatePeak_eq]

/-- An empty queue gives the last sample again and counts an underflow slip (R147). -/
theorem take_nil {x : Path} (empty : x.buffer = []) :
    x.take = (x.last, { x with underflows := countSlip x.underflows, peak := x.take.2.peak }) := by
  unfold Path.take
  rw [empty]
  simp only [updatePeak_eq]

/-- Taking a sample touches the samples, the last one, the underflow slips and the peak. -/
theorem take_eq (x : Path) : x.take.2 = { x with
    buffer := x.buffer.tail, last := x.take.2.last, underflows := x.take.2.underflows, peak := x.take.2.peak } := by
  cases queued : x.buffer with
  | nil =>
    rw [take_nil queued]
    simp [queued]
  | cons v rest =>
    rw [take_cons queued]
    rfl

/-- The peak is brought up to date with the fill that a taken sample leaves (R148). -/
theorem take_peak {x : Path} (centred : x.centring = false) : x.take.2.peak = max x.peak x.take.2.distance := by
  unfold Path.take
  split <;> simp [updatePeak_eq, centred, Path.distance]

/-- A read touches the samples, centring, the last sample, the underflow slips and the peak (R147, R148). -/
theorem read_eq (x : Path) : x.read.2 = { x with
    buffer := x.read.2.buffer, centring := x.read.2.centring, last := x.read.2.last, underflows := x.read.2.underflows
    peak := x.read.2.peak } := by
  rcases read_cases x with held | taken
  · rw [held]
  · rw [taken, take_eq]

theorem read_length_le (x : Path) : x.read.2.buffer.length ≤ x.buffer.length := by
  rcases read_cases x with held | taken
  · rw [held]
  · rw [taken, take_eq]
    simp

/-- A full buffer loses a sample for the new one (R146). -/
theorem write_length_le {x : Path} (v : Sample) (room : 1 ≤ x.depth) (fits : x.buffer.length ≤ x.depth) :
    (x.write v).buffer.length ≤ x.depth := by
  rw [write_eq]
  dsimp only
  split
  · simp
    omega
  · simp
    omega

@[simp] theorem write_state (x : Path) (v : Sample) : (x.write v).state = x.state := by rw [write_eq]
@[simp] theorem write_gain (x : Path) (v : Sample) : (x.write v).gain = x.gain := by rw [write_eq]
@[simp] theorem write_volume (x : Path) (v : Sample) : (x.write v).volume = x.volume := by rw [write_eq]
@[simp] theorem write_depth (x : Path) (v : Sample) : (x.write v).depth = x.depth := by rw [write_eq]
@[simp] theorem write_readCount (x : Path) (v : Sample) : (x.write v).readCount = x.readCount := by rw [write_eq]

@[simp] theorem read_state (x : Path) : x.read.2.state = x.state := by rw [read_eq]
@[simp] theorem read_gain (x : Path) : x.read.2.gain = x.gain := by rw [read_eq]
@[simp] theorem read_volume (x : Path) : x.read.2.volume = x.volume := by rw [read_eq]
@[simp] theorem read_depth (x : Path) : x.read.2.depth = x.depth := by rw [read_eq]
@[simp] theorem read_readCount (x : Path) : x.read.2.readCount = x.readCount := by rw [read_eq]

/-! ### The ramp -/

/-- A read that is not the thirty-second counts alone (R150). -/
theorem ramp_counts {x : Path} (few : x.readCount < 31) (goal : Nat) : x.ramp goal = { x with readCount := x.readCount + 1 } :=
  if_neg (by omega)

/-- The thirty-second read moves the gain (R150). -/
theorem ramp_steps {x : Path} (due : 31 ≤ x.readCount) (goal : Nat) :
    x.ramp goal = { x with readCount := 0, gain := towards x.gain goal } := if_pos (by omega)

/-- A ramp step touches the read count and the gain (R150). -/
theorem ramp_eq (x : Path) (goal : Nat) : x.ramp goal = { x with
    readCount := (x.ramp goal).readCount, gain := if 31 ≤ x.readCount then towards x.gain goal else x.gain } := by
  by_cases due : 31 ≤ x.readCount
  · rw [ramp_steps due, if_pos due]
  · rw [ramp_counts (by omega), if_neg due]

@[simp] theorem ramp_state (x : Path) (goal : Nat) : (x.ramp goal).state = x.state := by rw [ramp_eq]

theorem towards_up {gain goal : Nat} (below : gain < goal) : towards gain goal = gain + 1 := if_pos below

theorem towards_down {gain goal : Nat} (above : goal < gain) : towards gain goal = gain - 1 := by
  unfold towards
  rw [if_neg (by omega), if_pos above]

@[simp] theorem towards_self (gain : Nat) : towards gain gain = gain := by simp [towards]

/-! ### Samples -/

/-- A whole number within sixteen bits is the value of its sample. -/
theorem ofInt_toInt {n : Int} (low : -32768 ≤ n) (high : n ≤ 32767) : (BitVec.ofInt 16 n).toInt = n := by
  rw [BitVec.toInt_ofInt]
  exact Int.bmod_eq_of_le (by norm_num; omega) (by norm_num; omega)

theorem sample_bounds (v : Sample) : -32768 ≤ v.toInt ∧ v.toInt ≤ 32767 := by
  have low := BitVec.le_toInt v
  have high := BitVec.toInt_lt (x := v)
  norm_num at low high
  omega

/-- A factor of at most 255 is undone by the division by 256. -/
theorem natAbs_tdiv_le {v : Int} {k : Nat} (small : k ≤ 255) : ((v * (k : Int)).tdiv 256).natAbs ≤ v.natAbs := by
  rw [Int.natAbs_tdiv, Int.natAbs_mul, Int.natAbs_natCast]
  show v.natAbs * k / 256 ≤ v.natAbs
  have scaled : v.natAbs * k ≤ v.natAbs * 256 := Nat.mul_le_mul_left _ (by omega)
  omega

/-- The output of a gain of at most 15 (R149). -/
theorem scaled_toInt (v : Sample) {g : Nat} (atMost : g ≤ 15) :
    (scaled v g).toInt = (v.toInt * (17 * (g : Int))).tdiv 256 ∧ (scaled v g).toInt.natAbs ≤ v.toInt.natAbs := by
  have shrinks : ((v.toInt * ((17 * g : Nat) : Int)).tdiv 256).natAbs ≤ v.toInt.natAbs := natAbs_tdiv_le (by omega)
  have negative : v.toInt = -32768 → (v.toInt * ((17 * g : Nat) : Int)).tdiv 256 ≤ 32767 := fun lowest => by
    have positive : 0 ≤ ((32768 : Int) * ((17 * g : Nat) : Int)).tdiv 256 := Int.tdiv_nonneg (by omega) (by decide)
    rw [lowest, Int.neg_mul, Int.neg_tdiv]
    omega
  obtain ⟨low, high⟩ := sample_bounds v
  have value : (scaled v g).toInt = (v.toInt * ((17 * g : Nat) : Int)).tdiv 256 := ofInt_toInt (by omega) (by omega)
  rw [value]
  exact ⟨by push_cast; rfl, shrinks⟩

/-- The amplitudes of the tone table are samples (R158). -/
theorem tone_amplitude_le (tone : Nat) : (Config.tone tone).amplitude ≤ 10000 := by
  unfold Config.tone
  split <;> decide

/-- A tone is a square wave that starts high (R158). -/
theorem sample_toInt (t : Playing) : t.sample.toInt = if t.pos / (Config.tone t.tone).halfPeriod % 2 = 0
    then ((Config.tone t.tone).amplitude : Int) else -((Config.tone t.tone).amplitude : Int) := by
  have small := tone_amplitude_le t.tone
  have high : BitVec.ofNat 16 (Config.tone t.tone).amplitude = BitVec.ofInt 16 (Config.tone t.tone).amplitude :=
    (BitVec.ofInt_natCast _ _).symm
  unfold Playing.sample
  dsimp only
  split
  · rw [high]
    exact ofInt_toInt (by omega) (by omega)
  · rw [high, ← BitVec.ofInt_neg]
    exact ofInt_toInt (by omega) (by omega)

/-! ### The statement -/

/-- Settles O44: the buffer by the equations of a write and a read, the outputs, gains and tones by theirs. -/
theorem buffersOutputsAndTones : Obligations.BuffersOutputsAndTones := by
  refine ⟨fun x v => ⟨fun room => ?_, fun full => ?_, fun deep fits => ⟨write_length_le v deep fits, (read_length_le x).trans fits⟩,
    read_held, fun w rest ready queued => ?_, fun ready empty => ?_, fun centring => ?_, fun centred => ?_, fun centring below => ?_,
    fun ready => ?_, write_state x v, write_gain x v, write_volume x v, write_depth x v, read_state x, read_gain x, read_volume x,
    read_depth x⟩, fun v g => scaled_toInt v, by decide, by decide, by decide, by decide,
    fun x goal => ⟨fun few => ramp_counts few goal, fun due up => ?_, fun due down => ?_, fun due there => ?_⟩,
    ⟨rfl, rfl, rfl, rfl⟩, fun tone left pos => sample_toInt ⟨tone, left, pos⟩⟩
  · rw [write_eq, if_neg (Nat.not_le.2 room), if_neg (Nat.not_le.2 room)]
    exact ⟨rfl, rfl⟩
  · rw [write_eq, if_pos full, if_pos full]
    exact ⟨rfl, rfl⟩
  · have queued : ({ x with centring := false } : Path).buffer = w :: rest := queued
    rw [read_taken ready, take_cons queued]
    exact ⟨rfl, rfl, rfl, rfl, rfl⟩
  · have empty : ({ x with centring := false } : Path).buffer = [] := empty
    rw [read_taken (ready.imp id fun half => by omega), take_nil empty]
    exact ⟨rfl, empty, rfl, rfl⟩
  · rw [write_peak, if_pos centring]
  · rw [write_peak, if_neg (by simp [centred])]
  · rw [read_held centring below]
  · rw [read_taken ready]
    exact take_peak rfl
  · rw [ramp_steps due, towards_up up]
  · rw [ramp_steps due, towards_down down]
  · rw [ramp_steps due, there, towards_self]

end Sys2Proof.Machine
end

section
/-! The paths of the intercom (R153 to R155): what a derivation, an opening and a quieting make of the states and gains, each said once. -/

namespace Sys2Proof.Machine

/-! ### Opening from closed -/

@[simp] theorem openFrom_state (x : Path) (depth : Nat) : (x.openFrom depth).state = .opened := rfl
@[simp] theorem openFrom_gain (x : Path) (depth : Nat) : (x.openFrom depth).gain = x.gain := rfl

theorem mayOpen_iff (x other : Path) : x.mayOpen other = true ↔ x.state = .waiting ∧ other.gain = 0 := by simp [Path.mayOpen]

/-- The paths after an opening: each from closed if it may open (R155). -/
theorem openWaiting_eq (x : Intercom) (depth : Nat) : x.openWaiting depth = { x with
    fr := (x.openWaiting depth).fr, rf := (x.openWaiting depth).rf } := rfl

@[simp] theorem openWaiting_playing (x : Intercom) (depth : Nat) : (x.openWaiting depth).playing = x.playing := rfl

/-- A path that may not open stands. -/
theorem openWaiting_fr_stands {x : Intercom} (not : x.fr.state ≠ .waiting ∨ x.rf.gain ≠ 0) (depth : Nat) :
    (x.openWaiting depth).fr = x.fr := if_neg (by rw [mayOpen_iff]; tauto)

theorem openWaiting_rf_stands {x : Intercom} (not : x.rf.state ≠ .waiting ∨ x.fr.gain ≠ 0) (depth : Nat) :
    (x.openWaiting depth).rf = x.rf := if_neg (by rw [mayOpen_iff]; tauto)

/-- A WAITING path whose other is silent opens from closed (R155). -/
theorem openWaiting_fr_opens {x : Intercom} (waiting : x.fr.state = .waiting) (silent : x.rf.gain = 0) (depth : Nat) :
    (x.openWaiting depth).fr = x.fr.openFrom depth := if_pos ((mayOpen_iff _ _).2 ⟨waiting, silent⟩)

theorem openWaiting_rf_opens {x : Intercom} (waiting : x.rf.state = .waiting) (silent : x.fr.gain = 0) (depth : Nat) :
    (x.openWaiting depth).rf = x.rf.openFrom depth := if_pos ((mayOpen_iff _ _).2 ⟨waiting, silent⟩)

/-- An opening changes no gain (R153). -/
@[simp] theorem openWaiting_fr_gain (x : Intercom) (depth : Nat) : (x.openWaiting depth).fr.gain = x.fr.gain := by
  show (if x.fr.mayOpen x.rf then _ else _ : Path).gain = _
  split <;> rfl

@[simp] theorem openWaiting_rf_gain (x : Intercom) (depth : Nat) : (x.openWaiting depth).rf.gain = x.rf.gain := by
  show (if x.rf.mayOpen x.fr then _ else _ : Path).gain = _
  split <;> rfl

/-- FR is OPEN after an opening when it was, or when it was WAITING with RF silent. -/
theorem openWaiting_fr_opened_iff (x : Intercom) (depth : Nat) : (x.openWaiting depth).fr.state = .opened
    ↔ x.fr.state = .opened ∨ x.fr.state = .waiting ∧ x.rf.gain = 0 := by
  by_cases may : x.fr.state = .waiting ∧ x.rf.gain = 0
  · simp [openWaiting_fr_opens may.1 may.2, may]
  · rw [openWaiting_fr_stands (by tauto)]
    tauto

theorem openWaiting_rf_opened_iff (x : Intercom) (depth : Nat) : (x.openWaiting depth).rf.state = .opened
    ↔ x.rf.state = .opened ∨ x.rf.state = .waiting ∧ x.fr.gain = 0 := by
  by_cases may : x.rf.state = .waiting ∧ x.fr.gain = 0
  · simp [openWaiting_rf_opens may.1 may.2, may]
  · rw [openWaiting_rf_stands (by tauto)]
    tauto

/-- An opening closes no path and opens no CLOSED one. -/
@[simp] theorem openWaiting_fr_closed_iff (x : Intercom) (depth : Nat) :
    (x.openWaiting depth).fr.state = .closed ↔ x.fr.state = .closed := by
  by_cases may : x.fr.state = .waiting ∧ x.rf.gain = 0
  · simp [openWaiting_fr_opens may.1 may.2, may]
  · rw [openWaiting_fr_stands (by tauto)]

@[simp] theorem openWaiting_rf_closed_iff (x : Intercom) (depth : Nat) :
    (x.openWaiting depth).rf.state = .closed ↔ x.rf.state = .closed := by
  by_cases may : x.rf.state = .waiting ∧ x.fr.gain = 0
  · simp [openWaiting_rf_opens may.1 may.2, may]
  · rw [openWaiting_rf_stands (by tauto)]

/-! ### The derivation -/

/-- A path that is not wanted is CLOSED (R154). -/
theorem derived_unwanted (x : Path) (half : Bool) (depth : Nat) : x.derived false half depth = { x with state := .closed } := rfl

/-- A wanted OPEN path stands (R154). -/
theorem derived_opened {x : Path} (opened : x.state = .opened) (half : Bool) (depth : Nat) : x.derived true half depth = x := by
  simp [Path.derived, opened]

/-- In DUPLEX a wanted path that is not OPEN opens from closed at once (R154). -/
theorem derived_full {x : Path} (shut : x.state ≠ .opened) (depth : Nat) : x.derived true false depth = x.openFrom depth := by
  simp [Path.derived, shut]

/-- In PTT and PRIVATE a wanted path that is not OPEN waits (R154, R155). -/
theorem derived_half {x : Path} (shut : x.state ≠ .opened) (depth : Nat) : x.derived true true depth = { x with state := .waiting } := by
  simp [Path.derived, shut]

/-- A derivation changes no gain. -/
@[simp] theorem derived_gain (x : Path) (wanted half : Bool) (depth : Nat) : (x.derived wanted half depth).gain = x.gain := by
  unfold Path.derived
  split
  · rfl
  · split
    · rfl
    · split <;> rfl

theorem derived_closed (x : Path) (wanted half : Bool) (depth : Nat) : (x.derived wanted half depth).state = .closed ↔ wanted = false := by
  cases wanted with
  | false => simp [derived_unwanted]
  | true =>
    by_cases opened : x.state = .opened
    · simp [derived_opened opened, opened]
    · cases half with
      | false => simp [derived_full opened]
      | true => simp [derived_half opened]

/-- By the half-duplex rule a derivation opens no path: one that is OPEN after it was OPEN before and stands (R155). -/
theorem derived_half_opened {x : Path} {wanted : Bool} {depth : Nat} (opened : (x.derived wanted true depth).state = .opened) :
    x.state = .opened := by
  by_contra shut
  cases wanted with
  | false => simp [derived_unwanted] at opened
  | true => simp [derived_half shut] at opened

/-- By the half-duplex rule at most one path is wanted (R154). -/
theorem wants_one {x : Intercom} (half : x.mode.halfDuplex = true) : x.wantsFR = false ∨ x.wantsRF = false := by
  unfold Intercom.wantsFR Intercom.wantsRF
  cases mode : x.mode with
  | off => exact .inl rfl
  | duplex => simp [mode, TalkMode.halfDuplex] at half
  | ptt => cases x.held <;> simp
  | privateTalk => cases x.held <;> simp

theorem derive_one_closed {x : Intercom} (half : x.mode.halfDuplex = true) (depth : Nat) :
    (x.derive depth).fr.state = .closed ∨ (x.derive depth).rf.state = .closed :=
  (wants_one half).imp (derived_closed _ _ _ _).2 (derived_closed _ _ _ _).2

/-! ### The quieting -/

theorem silence_opened {x : Path} (opened : x.state = .opened) : x.silence = x := if_pos opened

theorem silence_shut {x : Path} (shut : x.state ≠ .opened) : x.silence = { x with gain := 0 } := if_neg shut

@[simp] theorem silence_state (x : Path) : x.silence.state = x.state := by
  unfold Path.silence
  split <;> rfl

/-- While a prompt plays FR is excepted from the quieting (R155). -/
theorem quiet_fr_playing {x : Intercom} (playing : x.playing.isSome = true) : x.quiet.fr = x.fr := if_pos playing

theorem quiet_fr_silenced {x : Intercom} (none : x.playing = none) : x.quiet.fr = x.fr.silence := if_neg (by simp [none])

@[simp] theorem quiet_fr_state (x : Intercom) : x.quiet.fr.state = x.fr.state := by
  show (if x.playing.isSome then _ else _ : Path).state = _
  split
  · rfl
  · exact silence_state x.fr

@[simp] theorem quiet_rf_state (x : Intercom) : x.quiet.rf.state = x.rf.state := silence_state x.rf

/-- After a quieting a path that is not OPEN is silent, FR excepted while a prompt plays (R155). -/
theorem quiet_rf_gain {x : Intercom} (shut : x.rf.state ≠ .opened) : x.quiet.rf.gain = 0 :=
  congrArg Path.gain (silence_shut shut)

theorem quiet_fr_gain {x : Intercom} (none : x.playing = none) (shut : x.fr.state ≠ .opened) : x.quiet.fr.gain = 0 := by
  rw [quiet_fr_silenced none, silence_shut shut]

end Sys2Proof.Machine
end

section
/-! The half-duplex law (R155) through everything the part can do to the intercom: each of its moves keeps the law. -/

namespace Sys2Proof.Machine

/-! ### The parts of a move -/

/-- Outside PTT and PRIVATE the law says nothing. -/
theorem talkLaw_of_not_half {x : Intercom} (not : x.mode.halfDuplex = false) : TalkLaw x := fun half => absurd half (by simp [not])

namespace TalkLaw

/-- The law looks at the mode, at the states and gains of the paths, and at whether a prompt plays. -/
theorem of_same {x y : Intercom} (law : TalkLaw x) (mode : y.mode = x.mode) (playing : y.playing = none → x.playing = none)
    (frState : y.fr.state = x.fr.state) (frGain : y.fr.gain = x.fr.gain) (rfState : y.rf.state = x.rf.state)
    (rfGain : y.rf.gain = x.rf.gain) : TalkLaw y := by
  intro half
  rw [mode] at half
  obtain ⟨one, fr, rest⟩ := law half
  rw [frState, frGain, rfState, rfGain]
  exact ⟨one, fr, fun none => rest (playing none)⟩

/-- A derivation leaves one path CLOSED and opens none. -/
theorem derive {x : Intercom} (law : TalkLaw x) (depth : Nat) : TalkLaw (x.derive depth) := by
  intro half
  have same : x.mode.halfDuplex = true := half
  obtain ⟨-, fr, rest⟩ := law half
  have frOpened : (x.derive depth).fr.state = .opened → x.fr.state = .opened := by
    show (x.fr.derived x.wantsFR x.mode.halfDuplex depth).state = .opened → _
    rw [same]
    exact derived_half_opened
  have rfOpened : (x.derive depth).rf.state = .opened → x.rf.state = .opened := by
    show (x.rf.derived x.wantsRF x.mode.halfDuplex depth).state = .opened → _
    rw [same]
    exact derived_half_opened
  have frGain : (x.derive depth).fr.gain = x.fr.gain := derived_gain _ _ _ _
  have rfGain : (x.derive depth).rf.gain = x.rf.gain := derived_gain _ _ _ _
  rw [frGain, rfGain]
  exact ⟨derive_one_closed same depth, fun opened => fr (frOpened opened),
    fun none => ⟨fun opened => (rest none).1 (rfOpened opened), (rest none).2⟩⟩

/-- A path opens only while the other is silent. -/
theorem openWaiting {x : Intercom} (law : TalkLaw x) (depth : Nat) : TalkLaw (x.openWaiting depth) := by
  intro half
  obtain ⟨one, fr, rest⟩ := law half
  rw [openWaiting_fr_closed_iff, openWaiting_rf_closed_iff, openWaiting_fr_opened_iff, openWaiting_rf_opened_iff, openWaiting_fr_gain,
    openWaiting_rf_gain]
  exact ⟨one, fun opened => opened.elim fr And.right, fun none => ⟨fun opened => opened.elim (rest none).1 And.right, (rest none).2⟩⟩

theorem settlePaths {x : Intercom} (law : TalkLaw x) (depth : Nat) : TalkLaw (x.settlePaths depth) := (law.derive depth).openWaiting depth

/-- With one path CLOSED a quieting establishes the law. -/
theorem quiet {x : Intercom} (one : x.fr.state = .closed ∨ x.rf.state = .closed) : TalkLaw x.quiet := by
  intro _
  have frShut : x.rf.state ≠ .closed → x.fr.state ≠ .opened := fun shut opened => by simp [shut, opened] at one
  have rfShut : x.fr.state ≠ .closed → x.rf.state ≠ .opened := fun shut opened => by simp [shut, opened] at one
  rw [quiet_fr_state, quiet_rf_state]
  refine ⟨one, fun opened => quiet_rf_gain (rfShut (by simp [opened])), fun none => ⟨fun opened => ?_, ?_⟩⟩
  · exact quiet_fr_gain none (frShut (by simp [opened]))
  · rcases one with closed | closed
    · exact .inl (quiet_fr_gain none (by simp [closed]))
    · exact .inr (quiet_rf_gain (by simp [closed]))

/-! ### Ramp steps -/

/-- A silent path whose goal is 0 stays silent. -/
theorem ramp_silent {x : Path} {goal : Nat} (silent : x.gain = 0) (none : goal = 0) : (x.ramp goal).gain = 0 := by
  rw [ramp_eq, silent, none]
  simp

/-- RF is silent and stays so while FR is OPEN, and while FR has a gain with no prompt playing (R150, R155). -/
theorem rampRF {x : Intercom} (law : TalkLaw x) : TalkLaw { x with rf := x.rf.ramp x.goalRF } := by
  intro half
  obtain ⟨one, fr, rest⟩ := law half
  have shut : x.rf.state ≠ .opened → x.goalRF = 0 := fun shut => if_neg shut
  refine ⟨by rwa [ramp_state], fun opened => ?_, fun none => ⟨fun opened => ?_, ?_⟩⟩
  · have opened : x.fr.state = .opened := opened
    refine ramp_silent (fr opened) (shut fun both => ?_)
    simp [opened, both] at one
  · rw [ramp_state] at opened
    exact (rest none).1 opened
  · rcases (rest none).2 with silent | silent
    · exact .inl silent
    · by_cases opened : x.rf.state = .opened
      · exact .inl ((rest none).1 opened)
      · exact .inr (ramp_silent silent (shut opened))

/-- FR is silent and stays so while RF is OPEN or has a gain, with no prompt playing (R150, R155). -/
theorem rampFR {x : Intercom} (law : TalkLaw x) : TalkLaw { x with fr := x.fr.ramp x.goalFR } := by
  intro half
  obtain ⟨one, fr, rest⟩ := law half
  refine ⟨by rwa [ramp_state], fun opened => fr (by rwa [ramp_state] at opened), fun none => ?_⟩
  have none : x.playing = .none := none
  have shut : x.fr.state ≠ .opened → x.goalFR = 0 := fun shut => by simp [Intercom.goalFR, none, Path.goal, shut]
  refine ⟨fun opened => ?_, ?_⟩
  · have opened : x.rf.state = .opened := opened
    refine ramp_silent ((rest none).1 opened) (shut fun both => ?_)
    simp [opened, both] at one
  · rcases (rest none).2 with silent | silent
    · by_cases opened : x.fr.state = .opened
      · exact .inr (fr opened)
      · exact .inl (ramp_silent silent (shut opened))
    · exact .inr silent

/-! ### Tones -/

/-- The chime's end derives the wanted paths (R159). -/
theorem chimeStep {x : Intercom} (law : TalkLaw x) (depth : Nat) : TalkLaw (x.chimeStep depth) := by
  unfold Intercom.chimeStep
  split
  · exact law
  · split
    · exact settlePaths (x := { x with chime := none }) law depth
    · exact law

/-- The last prompt's end brings the quieting, from which on the law holds with no prompt playing (R161). -/
theorem promptStep {x : Intercom} (law : TalkLaw x) (depth : Nat) : TalkLaw (x.promptStep depth) := by
  unfold Intercom.promptStep
  split
  · exact law
  · split
    · split
      · exact law.of_same rfl nofun rfl rfl rfl rfl
      · dsimp only
        split
        · rename_i half
          obtain ⟨one, -⟩ := law half
          exact (quiet (x := { x with playing := none }) one).openWaiting depth
        · rename_i not
          exact talkLaw_of_not_half (by simpa using not)
    · exact law.of_same rfl nofun rfl rfl rfl rfl

/-! ### Frames -/

theorem writeFR {x : Intercom} (law : TalkLaw x) (v : Sample) : TalkLaw { x with fr := x.fr.write v } :=
  law.of_same rfl id (write_state _ _) (write_gain _ _) rfl rfl

theorem writeRF {x : Intercom} (law : TalkLaw x) (v : Sample) : TalkLaw { x with rf := x.rf.write v } :=
  law.of_same rfl id rfl rfl (write_state _ _) (write_gain _ _)

theorem frontFrame {x : Intercom} (law : TalkLaw x) (mic : Sample) (active : Bool) (depth : Nat) :
    TalkLaw (x.frontFrame mic active depth) := by
  have read : ∀ out, TalkLaw { x with fr := x.fr.write mic, rf := x.rf.read.2, frontOut := out } := fun out =>
    (law.writeFR mic).of_same rfl id rfl rfl (read_state _) (read_gain _)
  exact ((read _).chimeStep depth).rampRF.openWaiting depth

theorem rearFrame {x : Intercom} (law : TalkLaw x) (mic : Sample) (depth : Nat) : TalkLaw (x.rearFrame mic depth) := by
  have read : ∀ out, TalkLaw { x with rf := x.rf.write mic, fr := x.fr.read.2, rearOut := out } := fun out =>
    (law.writeRF mic).of_same rfl id (read_state _) (read_gain _) rfl rfl
  exact ((read _).promptStep depth).rampFR.openWaiting depth

/-! ### Lines and requests -/

theorem talkRead {x : Intercom} (law : TalkLaw x) (pressed : Bool) (depth : Nat) : TalkLaw (x.talkRead pressed depth) := by
  unfold Intercom.talkRead
  split
  · exact settlePaths (x := { x with talkOlder := x.talkNewer, talkNewer := pressed, held := pressed }) law depth
  · exact law

theorem callRead {x : Intercom} (law : TalkLaw x) (pressed : Bool) (depth : Nat) : TalkLaw (x.callRead pressed depth) := by
  unfold Intercom.callRead Intercom.ring
  split
  · split
    · exact law
    · exact settlePaths (x := { x with
        callOlder := x.callNewer, callNewer := pressed, chime := some (Playing.begin Config.chimeTone) }) law depth
  · exact law

/-- A mode entered from OFF or DUPLEX finds the paths quieted; within PTT and PRIVATE the law is the one before (R155). -/
theorem enterMode {x : Intercom} (law : TalkLaw x) (m : TalkMode) (depth : Nat) : TalkLaw (x.enterMode m depth) := by
  unfold Intercom.enterMode
  refine openWaiting ?_ depth
  split
  · rename_i needs
    obtain ⟨-, half⟩ : x.mode.halfDuplex = false ∧ m.halfDuplex = true := by simpa [needsQuiet] using needs
    exact quiet (derive_one_closed half depth)
  · rename_i needless
    refine derive ?_ depth
    by_cases half : m.halfDuplex = true
    · have before : x.mode.halfDuplex = true := by simpa [needsQuiet, half] using needless
      exact fun _ => law before
    · exact talkLaw_of_not_half (by simpa using half)

/-- A clear leaves no path a gain (R164). -/
theorem clear (x : Intercom) (depth : Nat) : TalkLaw (x.clear depth) :=
  settlePaths (fun _ => ⟨.inl rfl, fun _ => rfl, fun _ => ⟨fun _ => rfl, .inl rfl⟩⟩) depth

theorem post {x : Intercom} (law : TalkLaw x) (tone : Nat) : TalkLaw (x.post tone) := by
  unfold Intercom.post
  split
  · exact law.of_same rfl nofun rfl rfl rfl rfl
  · exact law

end TalkLaw

/-! ### The moves -/

/-- A volume of a path set (R157). -/
def Intercom.withVolume (x : Intercom) (i : PathId) (n : Nat) : Intercom := x.putPath i { x.path i with volume := n }

/-- The slips of both paths cleared and their peaks restarted (R163). -/
def Intercom.restarted (x : Intercom) : Intercom := { x with fr := x.fr.restart, rf := x.rf.restart }

/-- What one piece of the part's work can make of the intercom. -/
inductive Intercom.Moves (x : Intercom) : Intercom → Prop
  | front (mic : Sample) (active : Bool) (depth : Nat) : x.Moves (x.frontFrame mic active depth)
  | rear (mic : Sample) (depth : Nat) : x.Moves (x.rearFrame mic depth)
  | lines (talk call : Bool) (depth : Nat) : x.Moves ((x.talkRead talk depth).callRead call depth)
  | mode (m : TalkMode) (depth : Nat) : x.Moves (x.enterMode m depth)
  | volume (i : PathId) (n : Nat) : x.Moves (x.withVolume i n)
  | restart : x.Moves x.restarted
  | clear (depth : Nat) : x.Moves (x.clear depth)
  | post (tone : Nat) : x.Moves (x.post tone)
  | monitor (select : MonitorSelect) : x.Moves { x with monitor := select }
  | mute : x.Moves x.mute
  | powerOn (pins : Lines) (depth : Nat) (select : MonitorSelect) (front rear tapped : Sample) :
    x.Moves { Intercom.powerOn pins depth select with frontOut := front, rearOut := rear, monitorOut := tapped }

/-- Every move keeps the law. -/
theorem TalkLaw.moves {x y : Intercom} (law : TalkLaw x) (move : x.Moves y) : TalkLaw y := by
  cases move with
  | front mic active depth => exact law.frontFrame mic active depth
  | rear mic depth => exact law.rearFrame mic depth
  | lines talk call depth => exact (law.talkRead talk depth).callRead call depth
  | mode m depth => exact law.enterMode m depth
  | volume i n => cases i <;> exact law
  | restart => exact law
  | clear depth => exact TalkLaw.clear x depth
  | post tone => exact law.post tone
  | monitor select => exact law
  | mute => exact law
  | powerOn pins depth select front rear tapped => exact talkLaw_of_not_half rfl

end Sys2Proof.Machine
end

section
/-! What a step can do to the intercom: nothing, or moves of `Intercom.Moves` one after another; said for every operation, command and
step, with the statement that every step keeps the law of R155. -/

namespace Sys2Proof.Machine

/-! ### Operations that leave the intercom -/

theorem intercom_of_beyondFiling {s t : State} (kept : t.beyondFiling = s.beyondFiling) : t.intercom = s.intercom := by
  show t.beyondFiling.intercom = s.beyondFiling.intercom
  rw [kept]

@[simp] theorem rederive_intercom (s : State) : s.rederive.intercom = s.intercom := intercom_of_beyondFiling (rederive_beyondFiling s)

@[simp] theorem enterStage_intercom (s : State) (sl : SlotId) (h : Hire) : (s.enterStage sl h).intercom = s.intercom :=
  intercom_of_beyondFiling (enterStage_beyondFiling s sl h)

@[simp] theorem updateLow_intercom (s : State) : s.updateLow.intercom = s.intercom := intercom_of_beyondFiling (updateLow_beyondFiling s)

@[simp] theorem handOver_intercom (s : State) (b : RecordBody) : (s.handOver b).intercom = s.intercom :=
  intercom_of_beyondFiling (handOver_beyondFiling s b)

@[simp] theorem complete_intercom (s : State) (b : RecordBody) : (s.complete b).intercom = s.intercom :=
  intercom_of_beyondFiling (complete_beyondFiling s b)

@[simp] theorem fileOn_intercom (s : State) : s.fileOn.intercom = s.intercom := intercom_of_beyondFiling (fileOn_beyondFiling s)

@[simp] theorem enterFiling_intercom (s : State) (sl : SlotId) (o : HireOutcome) : (s.enterFiling sl o).intercom = s.intercom :=
  intercom_of_beyondFiling (enterFiling_beyondFiling s sl o)

@[simp] theorem settleAndFile_intercom (s : State) (sl : SlotId) : (s.settleAndFile sl).intercom = s.intercom :=
  intercom_of_beyondFiling (settleAndFile_beyondFiling s sl)

@[simp] theorem renew_intercom (s : State) (p : PortId) (sl : SlotId) : (s.renew p sl).intercom = s.intercom :=
  intercom_of_beyondFiling (beyondFiling_of_beyondStage (renew_beyondStage s p sl))

@[simp] theorem lateApproval_intercom (s : State) (sl : SlotId) (n : Nat) (m : PayMethod) (a t : Nat) (r : BitVec 96) :
    (s.lateApproval sl n m a t r).intercom = s.intercom := intercom_of_beyondFiling (lateApproval_beyondFiling s sl n m a t r)

@[simp] theorem verifyFail_intercom (s : State) : s.verifyFail.intercom = s.intercom := intercom_of_beyondFiling (verifyFail_beyondFiling s)

theorem verifyPass_intercom (s : State) : s.verifyPass.intercom = s.intercom := by
  unfold State.verifyPass
  split <;> simp

theorem wheelPulse_intercom (s : State) : s.wheelPulse.intercom = s.intercom := by
  obtain ⟨_, -, pulsed⟩ := wheelPulse_out s
  rw [pulsed]

theorem activationDone_intercom (s : State) : s.activationDone.intercom = s.intercom := by
  unfold State.activationDone
  split
  · simp [State.activated]
  · rfl

theorem activationFailed_intercom (s : State) : s.activationFailed.intercom = s.intercom := by
  unfold State.activationFailed
  split <;> rfl

theorem onTotalsWrite_intercom (s : State) (f : ShiftAccounting → TotalsWrite → ShiftAccounting) :
    (s.onTotalsWrite f).intercom = s.intercom := by
  unfold State.onTotalsWrite
  split <;> rfl

theorem configWritten_intercom (s : State) : s.configWritten.intercom = s.intercom := by
  unfold State.configWritten
  split <;> rfl

theorem configWriteFailed_intercom (s : State) : s.configWriteFailed.intercom = s.intercom := by
  unfold State.configWriteFailed
  split
  · split <;> rfl
  · rfl

theorem freeze_intercom (s : State) : s.freeze.intercom = s.intercom := by
  unfold State.freeze
  split <;> rfl

/-! ### Requests that leave the intercom -/

/-- The work of a request of this owner leaves the intercom. -/
def LeavesIntercom (owner : Owner) : Prop := ∀ s : State, (owner s).1.intercom = s.intercom

/-- The settlement check at the end of a request, on the record it has written (R19). -/
theorem putAndSettle_intercom (s : State) (sl : SlotId) (h : Hire) : ((s.putHire sl h).settleAndFile sl).intercom = s.intercom := by simp

namespace LeavesIntercom

/-- Checks leave what the work behind them leaves. -/
theorem checked {checks : List (Bool × Code)} {work : Owner} (s : State) (left : (work s).1.intercom = s.intercom) :
    (Machine.checked checks work s).1.intercom = s.intercom := chk_rel (Q := fun t => t.intercom = s.intercom) rfl left

/-- So does the finding of the slot. -/
theorem slot {work : SlotId → Owner} (b : Byte) (left : ∀ sl, LeavesIntercom (work sl)) : LeavesIntercom (withSlot b work) := fun s =>
  slot_rel (Q := fun t => t.intercom = s.intercom) rfl fun sl => left sl s

/-! Shift Accounting. -/

theorem openShift (driver : Half) : LeavesIntercom (openShiftOwner driver) := fun s => checked s (rederive_intercom _)

theorem closeShift : LeavesIntercom closeShiftOwner := fun s => by
  unfold closeShiftOwner
  split
  · exact intercom_of_beyondFiling (closeShift_beyondFiling s)
  · rfl

theorem setPooling (pooling : Byte) : LeavesIntercom (setPoolingOwner pooling) := fun s => by
  unfold setPoolingOwner
  split
  · rfl
  · exact checked s (rederive_intercom _)

theorem readCounter (p : PortId) (index : Byte) : LeavesIntercom (readCounterOwner p index) := fun s => by
  unfold readCounterOwner
  split
  · rfl
  · split <;> rfl

/-! The Hire Controller. -/

theorem book (slot : Byte) (ref : BitVec 64) (d : Half) : LeavesIntercom (bookOwner slot ref d) :=
  LeavesIntercom.slot _ fun _ s => checked s (enterStage_intercom _ _ _)

theorem cancelBooking (slot : Byte) : LeavesIntercom (cancelBookingOwner slot) :=
  LeavesIntercom.slot _ fun _ s => checked s (enterStage_intercom _ _ _)

theorem startHire (slot choice : Byte) : LeavesIntercom (startHireOwner slot choice) := by
  refine LeavesIntercom.slot _ fun sl s => checked s ?_
  split
  · rfl
  · exact checked s (enterStage_intercom _ _ _)

theorem suspend (slot : Byte) : LeavesIntercom (suspendOwner slot) :=
  LeavesIntercom.slot _ fun _ s => checked s (enterStage_intercom _ _ _)

theorem resume (slot : Byte) : LeavesIntercom (resumeOwner slot) :=
  LeavesIntercom.slot _ fun _ s => checked s (enterStage_intercom _ _ _)

theorem stopHire (slot : Byte) : LeavesIntercom (stopHireOwner slot) := by
  refine LeavesIntercom.slot _ fun sl s => ?_
  dsimp only
  split
  · exact enterStage_intercom _ _ _
  · exact enterStage_intercom _ _ _
  · rfl
  · exact checked s rfl
  · rfl
  · rfl
  · rfl

theorem addExtra (slot extra : Byte) : LeavesIntercom (addExtraOwner slot extra) := by
  refine LeavesIntercom.slot _ fun sl s => checked s ?_
  split
  · rfl
  · exact checked s (putAndSettle_intercom _ _ _)

theorem removeExtra (slot extra : Byte) : LeavesIntercom (removeExtraOwner slot extra) :=
  LeavesIntercom.slot _ fun _ s => checked s (putAndSettle_intercom _ _ _)

theorem closeUnpaid (slot : Byte) : LeavesIntercom (closeUnpaidOwner slot) := by
  refine LeavesIntercom.slot _ fun sl s => checked s ?_
  exact (fileOn_intercom _).trans (enterFiling_intercom _ _ _)

theorem readHire (p : PortId) (slot : Byte) : LeavesIntercom (readHireOwner p slot) :=
  LeavesIntercom.slot _ fun sl s => renew_intercom s p sl

/-! The Settlement Unit. -/

theorem claim (p : PortId) (slot : Byte) : LeavesIntercom (claimOwner p slot) := by
  refine LeavesIntercom.slot _ fun sl s => checked s ?_
  split
  · exact renew_intercom s p sl
  · exact checked s (putAndSettle_intercom _ _ _)

theorem release (p : PortId) (slot : Byte) : LeavesIntercom (releaseOwner p slot) :=
  LeavesIntercom.slot _ fun _ s => checked s (putAndSettle_intercom _ _ _)

theorem beginPayment (p : PortId) (slot method : Byte) (amount tip : Word) : LeavesIntercom (beginPaymentOwner p slot method amount tip) :=
  LeavesIntercom.slot _ fun _ s => checked s (putAndSettle_intercom _ _ _)

theorem postCash (slot : Byte) (amount tip : Word) : LeavesIntercom (postCashOwner slot amount tip) :=
  LeavesIntercom.slot _ fun _ s => checked s (putAndSettle_intercom _ _ _)

theorem reverse (p : PortId) (slot entry : Byte) : LeavesIntercom (reverseOwner p slot entry) := by
  refine LeavesIntercom.slot _ fun sl s => checked s ?_
  split
  · rfl
  · refine checked s ((putAndSettle_intercom _ _ _).trans ?_)
    split <;> rfl

theorem writeResult (p : PortId) (sl : SlotId) (index : Nat) (e : Payment) : LeavesIntercom (writeResult p sl index e) := fun s =>
  putAndSettle_intercom s _ _

theorem pendingResult (p : PortId) (sl : SlotId) (f : ResultFields) (approved : Bool) (route : Route) (e : Payment) :
    LeavesIntercom (pendingResult p sl f approved route e) := fun s => by
  unfold Machine.pendingResult
  split
  · rfl
  · split
    · rfl
    · split
      · exact writeResult _ _ _ _ s
      · split
        · exact writeResult _ _ _ _ s
        · split
          · exact writeResult _ _ _ _ _
          · rfl

theorem lateResult (s : State) (sl : SlotId) (f : ResultFields) (approved : Bool) (e : Payment) :
    (s.lateResult sl f approved e).intercom = s.intercom := by
  unfold State.lateResult
  dsimp only
  split
  · rfl
  · split
    · split
      · rfl
      · exact lateApproval_intercom _ _ _ _ _ _ _
    · exact lateApproval_intercom _ _ _ _ _ _ _

theorem presentResult (p : PortId) (sl : SlotId) (f : ResultFields) (approved : Bool) (route : Route) :
    LeavesIntercom (presentResult p sl f approved route) := fun s => by
  unfold Machine.presentResult
  dsimp only
  split
  · rfl
  · split
    · rfl
    · split
      · rfl
      · split
        · exact pendingResult _ _ _ _ _ _ s
        · unfold expiredResult
          split
          · rfl
          · exact (renew_intercom _ _ _).trans (lateResult _ _ _ _ _)
        · rfl

theorem paymentResult (p : PortId) (f : ResultFields) : LeavesIntercom (paymentResultOwner p f) := fun s => by
  unfold paymentResultOwner
  split
  · split
    · rfl
    · split
      · exact presentResult _ _ _ _ _ s
      · unfold goneResult
        split
        · rfl
        · split
          · exact lateApproval_intercom _ _ _ _ _ _ _
          · rfl
  · rfl

/-! The Tariff Store, the Time Base and the Journal. -/

theorem answerBlock (pl : List Byte) (c : Chain) (code : Code) (result : List Byte) : LeavesIntercom (answerBlock pl c code result) :=
  fun s => by
    unfold Machine.answerBlock
    split <;> rfl

theorem load (pl : List Byte) : LeavesIntercom (loadOwner pl) := fun s => by
  refine checked s ?_
  unfold loadBlock
  split
  · exact answerBlock _ _ _ _ s
  · split
    · exact answerBlock _ _ _ _ _
    · exact answerBlock _ _ _ _ s

theorem compare (pl : List Byte) : LeavesIntercom (compareOwner pl) := fun s => by
  refine checked s ?_
  unfold compareBlock
  split
  · exact answerBlock _ _ _ _ s
  · split <;> exact answerBlock _ _ _ _ s

theorem readTariff (set item place : Byte) : LeavesIntercom (readTariffOwner set item place) := fun s => by
  unfold readTariffOwner
  split
  · rfl
  · split <;> rfl

theorem setConfig (f : ConfigFields) : LeavesIntercom (setConfigOwner f) := fun s => by
  refine checked s ?_
  show (s.configured f).intercom = s.intercom
  rw [(configured_out s f).kept]

theorem setClock (f : ClockFields) : LeavesIntercom (setClockOwner f) := fun s => by
  unfold setClockOwner
  split <;> rfl

theorem clockPayload (pl : List Byte) : LeavesIntercom (setClockPayload pl) := fun s => by
  unfold setClockPayload
  split
  · rfl
  · exact setClock _ s

theorem ackJournal (seq : Word) : LeavesIntercom (ackJournalOwner seq) := fun s => by
  refine checked s ?_
  split
  · rfl
  · exact updateLow_intercom _

theorem readUnfiled : LeavesIntercom readUnfiledOwner := fun s => by
  unfold readUnfiledOwner
  split <;> rfl

/-! The Sign Driver, the Alarm Unit and the Port Interface. -/

theorem signOverride (value : Byte) : LeavesIntercom (signOverrideOwner value) := fun s => by
  unfold signOverrideOwner
  split
  · rfl
  · split
    · rfl
    · split
      · exact rederive_intercom _
      · rfl

theorem signTestRun : LeavesIntercom signTestRunOwner := fun s => by
  unfold signTestRunOwner
  split <;> rfl

theorem signTest (value : Byte) : LeavesIntercom (signTestOwner value) := fun s => by
  unfold signTestOwner
  split
  · exact signTestRun s
  · split <;> rfl

theorem alarmStandDown : LeavesIntercom alarmStandDownOwner := fun s => by
  unfold alarmStandDownOwner
  split <;> rfl

theorem setIndicators (enable value : Byte) : LeavesIntercom (setIndicatorsOwner enable value) := fun s => by
  show (if _ then _ else _ : State).intercom = s.intercom
  split <;> rfl

end LeavesIntercom

/-! ### What moves the intercom -/

/-- The intercom of a state has come from another's by moves of the part. -/
def IntercomMoved (r s : State) : Prop := Relation.ReflTransGen Intercom.Moves r.intercom s.intercom

namespace IntercomMoved

variable {r s : State}

theorem refl (s : State) : IntercomMoved s s := Relation.ReflTransGen.refl

/-- What leaves the intercom. -/
theorem left (h : IntercomMoved r s) {t : State} (same : t.intercom = s.intercom) : IntercomMoved r t := by
  unfold IntercomMoved
  rw [same]
  exact h

theorem move (h : IntercomMoved r s) {t : State} (move : s.intercom.Moves t.intercom) : IntercomMoved r t :=
  Relation.ReflTransGen.tail h move

/-- What comes of a choice, whichever way it falls. -/
theorem either {c : Prop} [Decidable c] {t u : State} (ht : IntercomMoved r t) (hu : IntercomMoved r u) :
    IntercomMoved r (if c then t else u) := by
  split
  · exact ht
  · exact hu

/-! ### A tick, a Part clear, a warning and a start-up -/

theorem completePartClear (h : IntercomMoved r s) : IntercomMoved r s.completePartClear := by
  refine h.move ?_
  rw [completePartClear_out]
  exact .powerOn _ _ _ _ _ _

theorem partClearOn (h : IntercomMoved r s) : IntercomMoved r s.partClearOn := by
  unfold State.partClearOn
  split
  · split
    · exact h
    · exact h
    · exact h.completePartClear
    · exact either h h.completePartClear
  · exact h

/-- Both lines are read before the fare work, which leaves the intercom. -/
theorem tick (h : IntercomMoved r s) (l : Lines) : IntercomMoved r (s.tick l) := by
  have before : IntercomMoved r (preTick l s) := h.move (by
    rw [(preTick_out l s).intercom]
    exact .lines _ _ _)
  rw [tick_eq]
  refine partClearOn (either (before.left ?_) before)
  exact intercom_of_beyondFiling (fareWork_beyondFiling _)

theorem recoveryStart (h : IntercomMoved r s) : IntercomMoved r s.recoveryStart := either h.partClearOn h

theorem recoveryEnd (h : IntercomMoved r s) (failed : List Nat) : IntercomMoved r (s.recoveryEnd failed) :=
  either (completePartClear (h.left (updateLow_intercom _))) h

theorem warned (h : IntercomMoved r s) : IntercomMoved r s.warned := by
  unfold State.warned
  split
  · exact h.move .mute
  · exact h

/-- A start-up puts the intercom at its power-on values, whatever came of the retained state (R145, R191). -/
theorem startUp (h : IntercomMoved r s) (intact : Bool) (u : StartUp) : IntercomMoved r (s.startUp intact u) :=
  h.move (.powerOn _ _ _ _ _ _)

/-! ### Requests of the Intercom Switch -/

theorem setTalkModeOwner (h : IntercomMoved r s) (mode : Byte) : IntercomMoved r (setTalkModeOwner mode s).1 := by
  unfold Machine.setTalkModeOwner
  split
  · exact h
  · split
    · exact h
    · exact h.move (.mode _ _)

theorem setVolumeOwner (h : IntercomMoved r s) (path volume : Byte) : IntercomMoved r (setVolumeOwner path volume s).1 := by
  unfold Machine.setVolumeOwner
  split
  · exact h
  · exact chk_rel h (h.move (.volume _ _))

theorem readIntercomOwner (h : IntercomMoved r s) : IntercomMoved r (readIntercomOwner s).1 := h.move .restart

theorem intercomClearOwner (h : IntercomMoved r s) : IntercomMoved r (intercomClearOwner s).1 := h.move (.clear _)

theorem postPromptOwner (h : IntercomMoved r s) (tone : Byte) : IntercomMoved r (postPromptOwner tone s).1 :=
  chk_rel h (h.move (.post _))

theorem setMonitorOwner (h : IntercomMoved r s) (select : Byte) : IntercomMoved r (setMonitorOwner select s).1 := by
  unfold Machine.setMonitorOwner
  split
  · exact h
  · exact h.move (.monitor _)

/-! ### From a port to the owners -/

/-- The work of a request's owner, by its kind. -/
theorem ownerOf (h : IntercomMoved r s) (p : PortId) (pl : List Byte) (k : Kind) : IntercomMoved r (ownerOf p pl k s).1 :=
  match k with
  | .setTalkMode => h.setTalkModeOwner _
  | .setVolume => h.setVolumeOwner _ _
  | .readIntercom => h.readIntercomOwner
  | .intercomClear => h.intercomClearOwner
  | .postPrompt => h.postPromptOwner _
  | .setMonitor => h.setMonitorOwner _
  | .openShift => h.left (LeavesIntercom.openShift _ s)
  | .closeShift => h.left (LeavesIntercom.closeShift s)
  | .setPooling => h.left (LeavesIntercom.setPooling _ s)
  | .readCounter => h.left (LeavesIntercom.readCounter _ _ s)
  | .book => h.left (LeavesIntercom.book _ _ _ s)
  | .cancelBooking => h.left (LeavesIntercom.cancelBooking _ s)
  | .startHire => h.left (LeavesIntercom.startHire _ _ s)
  | .suspend => h.left (LeavesIntercom.suspend _ s)
  | .resume => h.left (LeavesIntercom.resume _ s)
  | .stopHire => h.left (LeavesIntercom.stopHire _ s)
  | .addExtra => h.left (LeavesIntercom.addExtra _ _ s)
  | .removeExtra => h.left (LeavesIntercom.removeExtra _ _ s)
  | .closeUnpaid => h.left (LeavesIntercom.closeUnpaid _ s)
  | .readHire => h.left (LeavesIntercom.readHire _ _ s)
  | .claim => h.left (LeavesIntercom.claim _ _ s)
  | .release => h.left (LeavesIntercom.release _ _ s)
  | .beginPayment => h.left (LeavesIntercom.beginPayment _ _ _ _ _ s)
  | .paymentResult => h.left (LeavesIntercom.paymentResult _ _ s)
  | .reverse => h.left (LeavesIntercom.reverse _ _ _ s)
  | .postCash => h.left (LeavesIntercom.postCash _ _ _ s)
  | .load => h.left (LeavesIntercom.load _ s)
  | .compare => h.left (LeavesIntercom.compare _ s)
  | .readTariff => h.left (LeavesIntercom.readTariff _ _ _ s)
  | .setConfig => h.left (LeavesIntercom.setConfig _ s)
  | .setClock => h.left (LeavesIntercom.clockPayload _ s)
  | .ackJournal => h.left (LeavesIntercom.ackJournal _ s)
  | .readUnfiled => h.left (LeavesIntercom.readUnfiled s)
  | .signOverride => h.left (LeavesIntercom.signOverride _ s)
  | .signTest => h.left (LeavesIntercom.signTest _ s)
  | .alarmStandDown => h.left (LeavesIntercom.alarmStandDown s)
  | .setIndicators => h.left (LeavesIntercom.setIndicators _ _ s)
  | .activate | .readJournal | .ackUnfiled | .clearPart => h.left (LeavesIntercom.checked s rfl)
  | .readShift | .latchCounters | .signClear | .readAlarmLog | .readIndicators | .ackNotices | .setNoticeMask | .setStageMask | .null =>
    h.left rfl

theorem admitRequest {owner : Owner} (h : IntercomMoved r s) (p : PortId) (k tag : Byte) (offered : Bool)
    (work : IntercomMoved r (owner s).1) : IntercomMoved r (admitRequest p k tag offered owner s) :=
  admit_rel (R := fun _ t => IntercomMoved r t) h (fun _ _ g => g.left rfl) work

theorem admitNull (h : IntercomMoved r s) (p : PortId) (tag : Byte) : IntercomMoved r (admitNull p tag s) := by
  refine h.left ?_
  unfold Machine.admitNull
  split
  · rfl
  · rfl
  · unfold State.takeNull
    dsimp only
    split <;> rfl

theorem takeFrame (h : IntercomMoved r s) (p : PortId) (bs : List Byte) : IntercomMoved r (takeFrame p bs s) := by
  unfold Machine.takeFrame
  dsimp only
  split
  · unfold takeRequest
    split
    · exact h.admitNull _ _
    · refine h.admitRequest _ _ _ _ ?_
      unfold checkedOwner
      split
      · exact h.ownerOf _ _ _
      · exact h
    · exact h.admitRequest _ _ _ _ h
  · exact h.left rfl

theorem receiveByte (h : IntercomMoved r s) (p : PortId) (b : Byte) : IntercomMoved r (receiveByte p s b) := by
  unfold Machine.receiveByte
  split
  · exact h
  · split
    · exact h.left rfl
    · exact h.left rfl
    · have received : IntercomMoved r (s.setReceive p none) := h.left rfl
      exact received.takeFrame _ _

theorem receiveBytes (p : PortId) (bs : List Byte) : ∀ {s : State}, IntercomMoved r s → IntercomMoved r (receiveBytes p bs s) := by
  induction bs with
  | nil => exact id
  | cons b bs ih => exact fun h => ih (h.receiveByte p b)

theorem readTransfer (h : IntercomMoved r s) (p : PortId) (n : Nat) : IntercomMoved r (s.readTransfer p n) := by
  refine h.left ?_
  unfold State.readTransfer
  dsimp only
  split
  · rfl
  · split <;> rfl

end IntercomMoved

/-! ### Every command and every step -/

/-- Whatever state an outcome leads to has its intercom by moves. -/
def MovesIntercom (s : State) (o : Host.Outcome State Fault Refusal) : Prop := ∀ t, o = .next t → IntercomMoved s t

namespace MovesIntercom

variable {s : State}

theorem next {t : State} (h : IntercomMoved s t) : MovesIntercom s (.next t) := by
  intro u same
  injection same with same
  exact same ▸ h

theorem request {owner : Owner} (p : PortId) (k : Kind) (tag : Byte) (work : IntercomMoved s (owner s).1) :
    MovesIntercom s (request p k tag owner s) := next ((IntercomMoved.refl s).admitRequest _ _ _ _ work)

/-- A request that leaves the intercom. -/
theorem still {owner : Owner} (p : PortId) (k : Kind) (tag : Byte) (left : (owner s).1.intercom = s.intercom) :
    MovesIntercom s (Machine.request p k tag owner s) := request p k tag ((IntercomMoved.refl s).left left)

/-- A block whose payload is too long is malformed, and reaches no owner (R175). -/
theorem block {owner : Owner} (p : PortId) (k : Kind) (tag : Byte) (pl : List Byte) (left : LeavesIntercom owner) :
    MovesIntercom s (requestBlock p k tag pl owner s) := by
  unfold requestBlock
  split
  · exact still _ _ _ (left s)
  · refine next ((IntercomMoved.refl s).left ?_)
    split <;> rfl

/-- An event that a running part takes. -/
theorem event {f : State → State} (work : IntercomMoved s (f s)) : MovesIntercom s (.next (whenRunning f s)) :=
  next (IntercomMoved.either work (IntercomMoved.refl s))

/-- A transfer on a port of a part that is not frozen. -/
theorem transfer {f : State → State} (work : IntercomMoved s (f s)) : MovesIntercom s (.next (unlessFrozen f s)) :=
  next (IntercomMoved.either (IntercomMoved.refl s) work)

/-- An event that falls or does not (log entry 4). -/
theorem falling {c : Prop} [Decidable c] {f : State → State} (work : IntercomMoved s (f s)) :
    MovesIntercom s (.next (if c then whenRunning f s else s)) :=
  next (IntercomMoved.either (IntercomMoved.either work (IntercomMoved.refl s)) (IntercomMoved.refl s))

theorem tickWith (falls : State → Bool) (l : Lines) : MovesIntercom s (.next (tickWith falls l s)) :=
  falling ((IntercomMoved.refl s).tick l)

end MovesIntercom

/-- Every command. -/
theorem exec_movesIntercom (i : Instr) (s : State) : MovesIntercom s (exec i s) :=
  have h := IntercomMoved.refl s
  match i with
  | .setTalkMode _ _ _ => .request _ _ _ (h.setTalkModeOwner _)
  | .setVolume _ _ _ _ => .request _ _ _ (h.setVolumeOwner _ _)
  | .readIntercom _ _ => .request _ _ _ h.readIntercomOwner
  | .intercomClear _ _ => .request _ _ _ h.intercomClearOwner
  | .postPrompt _ _ _ => .request _ _ _ (h.postPromptOwner _)
  | .setMonitor _ _ _ => .request _ _ _ (h.setMonitorOwner _)
  | .openShift _ _ _ => .still _ _ _ (LeavesIntercom.openShift _ s)
  | .closeShift _ _ => .still _ _ _ (LeavesIntercom.closeShift s)
  | .setPooling _ _ _ => .still _ _ _ (LeavesIntercom.setPooling _ s)
  | .readCounter _ _ _ => .still _ _ _ (LeavesIntercom.readCounter _ _ s)
  | .book _ _ _ _ _ => .still _ _ _ (LeavesIntercom.book _ _ _ s)
  | .cancelBooking _ _ _ => .still _ _ _ (LeavesIntercom.cancelBooking _ s)
  | .startHire _ _ _ _ => .still _ _ _ (LeavesIntercom.startHire _ _ s)
  | .suspend _ _ _ => .still _ _ _ (LeavesIntercom.suspend _ s)
  | .resume _ _ _ => .still _ _ _ (LeavesIntercom.resume _ s)
  | .stopHire _ _ _ => .still _ _ _ (LeavesIntercom.stopHire _ s)
  | .addExtra _ _ _ _ => .still _ _ _ (LeavesIntercom.addExtra _ _ s)
  | .removeExtra _ _ _ _ => .still _ _ _ (LeavesIntercom.removeExtra _ _ s)
  | .closeUnpaid _ _ _ => .still _ _ _ (LeavesIntercom.closeUnpaid _ s)
  | .readHire _ _ _ => .still _ _ _ (LeavesIntercom.readHire _ _ s)
  | .claim _ _ _ => .still _ _ _ (LeavesIntercom.claim _ _ s)
  | .release _ _ _ => .still _ _ _ (LeavesIntercom.release _ _ s)
  | .beginPayment _ _ _ _ _ _ => .still _ _ _ (LeavesIntercom.beginPayment _ _ _ _ _ s)
  | .paymentResult _ _ _ => .still _ _ _ (LeavesIntercom.paymentResult _ _ s)
  | .reverse _ _ _ _ => .still _ _ _ (LeavesIntercom.reverse _ _ _ s)
  | .postCash _ _ _ _ _ => .still _ _ _ (LeavesIntercom.postCash _ _ _ s)
  | .load _ _ _ => .block _ _ _ _ (LeavesIntercom.load _)
  | .compare _ _ _ => .block _ _ _ _ (LeavesIntercom.compare _)
  | .readTariff _ _ _ _ _ => .still _ _ _ (LeavesIntercom.readTariff _ _ _ s)
  | .setConfig _ _ x =>
    have sampled : IntercomMoved s (s.sampleSeal x.sealed) := h.left rfl
    .transfer (sampled.admitRequest _ _ _ _ (sampled.left (LeavesIntercom.setConfig _ _)))
  | .setClock _ _ _ => .still _ _ _ (LeavesIntercom.setClock _ s)
  | .ackJournal _ _ _ => .still _ _ _ (LeavesIntercom.ackJournal _ s)
  | .readUnfiled _ _ => .still _ _ _ (LeavesIntercom.readUnfiled s)
  | .signOverride _ _ _ => .still _ _ _ (LeavesIntercom.signOverride _ s)
  | .signTestRun _ _ => .still _ _ _ (LeavesIntercom.signTestRun s)
  | .alarmStandDown _ _ => .still _ _ _ (LeavesIntercom.alarmStandDown s)
  | .setIndicators _ _ _ _ => .still _ _ _ (LeavesIntercom.setIndicators _ _ s)
  | .activate _ _ | .readJournal _ _ _ | .ackUnfiled _ _ _ | .clearPart _ _ => .still _ _ _ (LeavesIntercom.checked s rfl)
  | .readShift _ _ | .latchCounters _ _ | .setClockRead _ _ | .signOverrideReport _ _ | .signTestReport _ _ | .signClear _ _
  | .readAlarmLog _ _ | .readIndicators _ _ | .ackNotices _ _ _ | .setNoticeMask _ _ _ | .setStageMask _ _ _ => .still _ _ _ rfl
  | .null _ _ => .next (h.admitNull _ _)
  | .writeStart p x =>
    have started : IntercomMoved s ((s.sampleSeal x.sealed).setReceive p (some [])) := h.left rfl
    .transfer (started.receiveBytes _ _)
  | .writeContinue _ x =>
    have sampled : IntercomMoved s (s.sampleSeal x.sealed) := h.left rfl
    .transfer (sampled.receiveBytes _ _)
  | .readFrame _ _ => .transfer (h.readTransfer _ _)
  | .repeatFrame _ _ => .transfer (h.left rfl)
  | .wheelPulse => .event (h.left (wheelPulse_intercom s))
  | .totalMetres100m => .falling (h.left (wheelPulse_intercom s))
  | .tick l => .event (h.tick l)
  | .fareTick _ | .ambientChange _ | .flashPhase _ | .signTestStep _ | .bookingExpired _ _ | .paymentExpired _ _ _ | .claimExpired _ _
  | .partClearComplete _ | .alarmPress _ => .tickWith _ _
  | .configWriteComplete => .event (h.left (configWritten_intercom s))
  | .configWriteFail => .event (h.left (configWriteFailed_intercom s))
  | .activationDone => .event (h.left (activationDone_intercom s))
  | .activationFailed => .event (h.left (activationFailed_intercom s))
  | .totalizerWriteComplete | .totalizerWriteFail => .event (h.left (onTotalsWrite_intercom s _))
  | .journalVerifyPass => .event (IntercomMoved.either (h.left (verifyPass_intercom s)).partClearOn h)
  | .journalVerifyFail => .event (IntercomMoved.either (h.left (verifyFail_intercom s)).partClearOn h)
  | .journalRecoveryStart => .event h.recoveryStart
  | .journalRecoveryEnd _ => .event (h.recoveryEnd _)
  | .frontCodecFrame _ => .event (h.move (.front _ _ _))
  | .rearCodecFrame _ => .event (h.move (.rear _ _))
  | .promptEnd _ => .falling (h.move (.rear _ _))
  | .chimeEnd _ => .falling (h.move (.front _ _ _))
  | .rtcSecond => .next (h.left rfl)
  | .powerFailWarning => .next h.warned
  | .freeze => .next (h.left (freeze_intercom s))
  | .freezeExit u => .next (by
      split
      · exact h.startUp _ _
      · exact h)
  | .powerOn u => .next (h.startUp _ _)

/-- A step takes the front command, so it too reaches the intercom by moves alone. -/
theorem step_movesIntercom {s t : State} (taken : step s = .next t) : Relation.ReflTransGen Intercom.Moves s.intercom t.intercom := by
  unfold step at taken
  split at taken
  · injection taken with same
    rw [same]
  · rename_i c rest queued
    exact exec_movesIntercom c { s with pending := rest } t taken

/-- So do moves one after another. -/
theorem TalkLaw.moved {x y : Intercom} (law : TalkLaw x) (moved : Relation.ReflTransGen Intercom.Moves x y) : TalkLaw y := by
  induction moved with
  | refl => exact law
  | tail _ move kept => exact kept.moves move

/-- Settles O58: a step reaches the intercom by its moves alone, and these keep the law. -/
theorem everyStepKeepsTheTalkLaw : Obligations.EveryStepKeepsTheTalkLaw := fun _ _ law taken => law.moved (step_movesIntercom taken)

end Sys2Proof.Machine
end

section
/-! Codec frames (R149 to R153, R155, R158, R159, R161, R162): what a tone's step, a frame on either link and a tone's end make of the
intercom, with their statement. -/

namespace Sys2Proof.Machine

/-! ### Tones -/

theorem ends_iff (t : Playing) : t.ends = true ↔ t.left ≤ 1 := by simp [Playing.ends]

/-- A chime that is absent or goes on moves no path. -/
theorem chimeStep_goesOn {x : Intercom} (goes : lastSample x.chime = false) (depth : Nat) :
    x.chimeStep depth = { x with chime := x.chime.map Playing.next } := by
  unfold Intercom.chimeStep
  cases chime : x.chime with
  | none => exact congrArg (fun c => { x with chime := c }) chime
  | some t =>
    rw [chime] at goes
    exact if_neg (by simpa [lastSample] using goes)

/-- The chime's end (R159). -/
theorem chimeStep_ends {x : Intercom} {t : Playing} (chime : x.chime = some t) (last : t.left ≤ 1) (depth : Nat) :
    x.chimeStep depth = ({ x with chime := none } : Intercom).settlePaths depth := by
  unfold Intercom.chimeStep
  rw [chime]
  exact if_pos ((ends_iff t).2 last)

/-- A step of the chime touches the chime and the paths. -/
theorem chimeStep_eq (x : Intercom) (depth : Nat) : x.chimeStep depth = { x with
    chime := (x.chimeStep depth).chime, fr := (x.chimeStep depth).fr, rf := (x.chimeStep depth).rf } := by
  unfold Intercom.chimeStep
  split
  · rfl
  · split <;> rfl

/-- A prompt that is absent or goes on moves no path. -/
theorem promptStep_goesOn {x : Intercom} (goes : lastSample x.playing = false) (depth : Nat) :
    x.promptStep depth = { x with playing := x.playing.map Playing.next } := by
  unfold Intercom.promptStep
  cases playing : x.playing with
  | none => exact congrArg (fun c => { x with playing := c }) playing
  | some t =>
    rw [playing] at goes
    exact if_neg (by simpa [lastSample] using goes)

/-- A prompt gives way to the one behind it (R161). -/
theorem promptStep_follows {x : Intercom} {t : Playing} {tone : Nat} {rest : List Nat} (playing : x.playing = some t) (last : t.left ≤ 1)
    (behind : x.waiting = tone :: rest) (depth : Nat) :
    x.promptStep depth = { x with playing := some (Playing.begin tone), waiting := rest } := by
  unfold Intercom.promptStep
  rw [playing, behind]
  exact if_pos ((ends_iff t).2 last)

/-- The end of the last prompt, with the quieting of PTT and PRIVATE (R155, R161). -/
theorem promptStep_ends {x : Intercom} {t : Playing} (playing : x.playing = some t) (last : t.left ≤ 1) (alone : x.waiting = [])
    (depth : Nat) : x.promptStep depth = if x.mode.halfDuplex
      then ({ x with playing := none } : Intercom).quiet.openWaiting depth else { x with playing := none } := by
  unfold Intercom.promptStep
  rw [playing, alone]
  exact if_pos ((ends_iff t).2 last)

/-- A step of the prompt touches the prompts and the paths. -/
theorem promptStep_eq (x : Intercom) (depth : Nat) : x.promptStep depth = { x with
    playing := (x.promptStep depth).playing, waiting := (x.promptStep depth).waiting, fr := (x.promptStep depth).fr
    rf := (x.promptStep depth).rf } := by
  unfold Intercom.promptStep
  split
  · rfl
  · split
    · split
      · rfl
      · dsimp only
        split <;> rfl
    · rfl

/-! ### The order of work in a frame (log entry 9) -/

/-- The front frame's write, read and speaker sample (R149, R151). -/
def Intercom.frontRead (x : Intercom) (mic : Sample) : Intercom :=
  { x with fr := x.fr.write mic, rf := x.rf.read.2, frontOut := scaled (substituted x.chime x.rf.read.1) x.rf.gain }

/-- The RF ramp step (R150, R151). -/
def Intercom.rampedRF (x : Intercom) : Intercom := { x with rf := x.rf.ramp x.goalRF }

/-- The front frame: the read, the chime, the ramp step, an opening, and the monitor sample. -/
theorem frontFrame_eq (x : Intercom) (mic : Sample) (active : Bool) (depth : Nat) : x.frontFrame mic active depth =
    { (((x.frontRead mic).chimeStep depth).rampedRF.openWaiting depth) with
      monitorOut := monitorSample active x.monitor x.rf.read.1 mic } := by
  have monitor : ((x.frontRead mic).chimeStep depth).monitor = x.monitor := by
    rw [chimeStep_eq]
    rfl
  rw [← monitor]
  rfl

/-- The rear frame's write, read and speaker sample (R149, R152). -/
def Intercom.rearRead (x : Intercom) (mic : Sample) : Intercom :=
  { x with rf := x.rf.write mic, fr := x.fr.read.2, rearOut := scaled (substituted x.playing x.fr.read.1) x.fr.gain }

/-- The FR ramp step (R150, R152). -/
def Intercom.rampedFR (x : Intercom) : Intercom := { x with fr := x.fr.ramp x.goalFR }

/-- The rear frame: the read, the prompt, the ramp step and an opening. -/
theorem rearFrame_eq (x : Intercom) (mic : Sample) (depth : Nat) :
    x.rearFrame mic depth = ((x.rearRead mic).promptStep depth).rampedFR.openWaiting depth := rfl

/-- What a front frame sends (R149, R162). -/
theorem frontFrame_sends (x : Intercom) (mic : Sample) (active : Bool) (depth : Nat) :
    (x.frontFrame mic active depth).frontOut = scaled (substituted x.chime x.rf.read.1) x.rf.gain
      ∧ (x.frontFrame mic active depth).rearOut = x.rearOut
      ∧ (x.frontFrame mic active depth).monitorOut = monitorSample active x.monitor x.rf.read.1 mic := by
  rw [frontFrame_eq, chimeStep_eq]
  exact ⟨rfl, rfl, rfl⟩

/-- What a rear frame sends (R149). -/
theorem rearFrame_sends (x : Intercom) (mic : Sample) (depth : Nat) :
    (x.rearFrame mic depth).rearOut = scaled (substituted x.playing x.fr.read.1) x.fr.gain
      ∧ (x.rearFrame mic depth).frontOut = x.frontOut ∧ (x.rearFrame mic depth).monitorOut = x.monitorOut := by
  rw [rearFrame_eq, promptStep_eq]
  exact ⟨rfl, rfl, rfl⟩

/-! ### The monitor sample -/

/-- The sum of two samples held within 32,767 either way (R162). -/
theorem mixed_toInt (v w : Sample) : (mixed v w).toInt = max (-32767) (min 32767 (v.toInt + w.toInt)) :=
  ofInt_toInt (by omega) (by omega)

theorem monitorSample_silent {active : Bool} {select : MonitorSelect} (silent : active = false ∨ select = .off) (cabin mic : Sample) :
    monitorSample active select cabin mic = 0 := by
  rcases silent with quiet | off
  · rw [quiet]
    rfl
  · rw [off]
    cases active <;> rfl

/-! ### Frames in which no tone ends and no path waits -/

theorem openWaiting_stands {x : Intercom} (fr : x.fr.state ≠ .waiting) (rf : x.rf.state ≠ .waiting) (depth : Nat) :
    x.openWaiting depth = x := by
  rw [openWaiting_eq, openWaiting_fr_stands (.inl fr), openWaiting_rf_stands (.inl rf)]

theorem frontFrame_plain {x : Intercom} (goes : lastSample x.chime = false) (fr : x.fr.state ≠ .waiting) (rf : x.rf.state ≠ .waiting)
    (mic : Sample) (active : Bool) (depth : Nat) :
    (x.frontFrame mic active depth).fr = x.fr.write mic
      ∧ (x.frontFrame mic active depth).rf = x.rf.read.2.ramp (if x.rf.state = .opened then x.rf.volume else 0)
      ∧ (x.frontFrame mic active depth).chime = x.chime.map Playing.next := by
  have goal : (x.frontRead mic).goalRF = if x.rf.state = .opened then x.rf.volume else 0 := by
    simp [Intercom.goalRF, Path.goal, Intercom.frontRead]
  rw [frontFrame_eq, chimeStep_goesOn (x := x.frontRead mic) goes, openWaiting_stands, ← goal]
  · exact ⟨rfl, rfl, rfl⟩
  · simpa [Intercom.rampedRF, Intercom.frontRead] using fr
  · simpa [Intercom.rampedRF, Intercom.frontRead] using rf

theorem rearFrame_plain {x : Intercom} (goes : lastSample x.playing = false) (fr : x.fr.state ≠ .waiting) (rf : x.rf.state ≠ .waiting)
    (mic : Sample) (depth : Nat) :
    (x.rearFrame mic depth).rf = x.rf.write mic
      ∧ (x.rearFrame mic depth).fr = x.fr.read.2.ramp (if x.playing.isSome ∨ x.fr.state = .opened then x.fr.volume else 0)
      ∧ (x.rearFrame mic depth).playing = x.playing.map Playing.next := by
  have goal : ({ x.rearRead mic with playing := x.playing.map Playing.next } : Intercom).goalFR
      = if x.playing.isSome ∨ x.fr.state = .opened then x.fr.volume else 0 := by
    cases playing : x.playing <;> simp [Intercom.goalFR, Path.goal, Intercom.rearRead]
  rw [rearFrame_eq, promptStep_goesOn (x := x.rearRead mic) goes, openWaiting_stands, ← goal]
  · exact ⟨rfl, rfl, rfl⟩
  · simpa [Intercom.rampedFR, Intercom.rearRead] using fr
  · simpa [Intercom.rampedFR, Intercom.rearRead] using rf

/-! ### The frame at which a WAITING path opens -/

/-- The ramp step that brings a gain of 1 to its goal of 0 (R150). -/
theorem ramp_falls_silent {x : Path} (one : x.gain = 1) (due : 31 ≤ x.readCount) : (x.ramp 0).gain = 0 := by
  rw [ramp_steps due, one]
  rfl

theorem frontFrame_opens {x : Intercom} (noChime : x.chime = none) (waits : x.fr.state = .waiting) (closed : x.rf.state = .closed)
    (one : x.rf.gain = 1) (due : 31 ≤ x.rf.readCount) (mic : Sample) (active : Bool) (depth : Nat) :
    (x.frontFrame mic active depth).rf.gain = 0 ∧ (x.frontFrame mic active depth).fr = (x.fr.write mic).openFrom depth := by
  have silent : (x.frontRead mic).rampedRF.rf.gain = 0 := by
    have goal : (x.frontRead mic).goalRF = 0 := if_neg (by simp [Intercom.frontRead, closed])
    show ((x.frontRead mic).rf.ramp (x.frontRead mic).goalRF).gain = 0
    rw [goal]
    exact ramp_falls_silent ((read_gain x.rf).trans one) (due.trans (read_readCount x.rf).ge)
  have frame : (x.frontRead mic).chimeStep depth = x.frontRead mic := by
    rw [chimeStep_goesOn (by simp [Intercom.frontRead, noChime, lastSample])]
    simp [Intercom.frontRead, noChime]
  rw [frontFrame_eq, frame]
  exact ⟨(openWaiting_rf_gain _ _).trans silent, openWaiting_fr_opens ((write_state x.fr mic).trans waits) silent depth⟩

theorem rearFrame_opens {x : Intercom} (noPrompt : x.playing = none) (waits : x.rf.state = .waiting) (closed : x.fr.state = .closed)
    (one : x.fr.gain = 1) (due : 31 ≤ x.fr.readCount) (mic : Sample) (depth : Nat) :
    (x.rearFrame mic depth).fr.gain = 0 ∧ (x.rearFrame mic depth).rf = (x.rf.write mic).openFrom depth := by
  have silent : (x.rearRead mic).rampedFR.fr.gain = 0 := by
    have goal : (x.rearRead mic).goalFR = 0 := by simp [Intercom.goalFR, Path.goal, Intercom.rearRead, noPrompt, closed]
    show ((x.rearRead mic).fr.ramp (x.rearRead mic).goalFR).gain = 0
    rw [goal]
    exact ramp_falls_silent ((read_gain x.fr).trans one) (due.trans (read_readCount x.fr).ge)
  have frame : (x.rearRead mic).promptStep depth = x.rearRead mic := by
    rw [promptStep_goesOn (by simp [Intercom.rearRead, noPrompt, lastSample])]
    simp [Intercom.rearRead, noPrompt]
  rw [rearFrame_eq, frame]
  exact ⟨(openWaiting_fr_gain _ _).trans silent, openWaiting_rf_opens ((write_state x.rf mic).trans waits) silent depth⟩

/-! ### The frame at which a tone ends -/

/-- The chime's end in a front frame (R159): in PRIVATE, where it alone wanted RF, RF closes. -/
theorem frontFrame_chimeEnds {x : Intercom} {t : Playing} (chime : x.chime = some t) (last : t.left ≤ 1) (mic : Sample) (active : Bool)
    (depth : Nat) : (x.frontFrame mic active depth).chime = none
      ∧ (x.mode = .privateTalk → (x.frontFrame mic active depth).rf.state = .closed) := by
  rw [frontFrame_eq, chimeStep_ends (x := x.frontRead mic) chime last]
  refine ⟨rfl, fun mode => ?_⟩
  have unwanted : ({ x.frontRead mic with chime := none } : Intercom).wantsRF = false := by
    simp [Intercom.wantsRF, Intercom.frontRead, mode]
  have closed := (settlePaths_closed_iff _ depth).2.2 unwanted
  show (Intercom.openWaiting _ depth).rf.state = .closed
  rw [openWaiting_rf_closed_iff]
  exact (ramp_state _ _).trans closed

theorem rearFrame_follows {x : Intercom} {t : Playing} {tone : Nat} {rest : List Nat} (playing : x.playing = some t) (last : t.left ≤ 1)
    (behind : x.waiting = tone :: rest) (mic : Sample) (depth : Nat) :
    (x.rearFrame mic depth).playing = some (Playing.begin tone) ∧ (x.rearFrame mic depth).waiting = rest := by
  rw [rearFrame_eq, promptStep_follows (x := x.rearRead mic) playing last behind]
  exact ⟨rfl, rfl⟩

theorem rearFrame_promptsEnd {x : Intercom} {t : Playing} (playing : x.playing = some t) (last : t.left ≤ 1) (alone : x.waiting = [])
    (mic : Sample) (depth : Nat) : (x.rearFrame mic depth).playing = none ∧ (x.rearFrame mic depth).waiting = [] := by
  rw [rearFrame_eq, promptStep_ends (x := x.rearRead mic) playing last alone]
  split <;> exact ⟨rfl, alone⟩

/-- The paths quieted at the end of the last prompt, after the rear frame's write and read. -/
def Intercom.promptsEnded (x : Intercom) (mic : Sample) : Intercom := ({ x.rearRead mic with playing := none } : Intercom).quiet

@[simp] theorem promptsEnded_playing (x : Intercom) (mic : Sample) : (x.promptsEnded mic).playing = none := rfl

@[simp] theorem promptsEnded_fr_state (x : Intercom) (mic : Sample) : (x.promptsEnded mic).fr.state = x.fr.state :=
  (quiet_fr_state _).trans (read_state x.fr)

@[simp] theorem promptsEnded_rf_state (x : Intercom) (mic : Sample) : (x.promptsEnded mic).rf.state = x.rf.state :=
  (quiet_rf_state _).trans (write_state x.rf mic)

/-- A path that is not OPEN falls silent and is otherwise as its write or read left it (R155). -/
theorem promptsEnded_fr {x : Intercom} (shut : x.fr.state ≠ .opened) (mic : Sample) :
    (x.promptsEnded mic).fr = { x.fr.read.2 with gain := 0 } :=
  (quiet_fr_silenced (x := { x.rearRead mic with playing := none }) rfl).trans (silence_shut (by rwa [← read_state] at shut))

theorem promptsEnded_rf {x : Intercom} (shut : x.rf.state ≠ .opened) (mic : Sample) :
    (x.promptsEnded mic).rf = { x.rf.write mic with gain := 0 } := silence_shut (by rwa [← write_state _ mic] at shut)

section
variable {x : Intercom} {t : Playing} (playing : x.playing = some t) (last : t.left ≤ 1) (alone : x.waiting = [])
  (half : x.mode.halfDuplex = true) (mic : Sample) (depth : Nat)
include playing last alone half

/-- With the last prompt over, a WAITING path may open before the FR ramp step, and another after it (R155, R161). -/
theorem rearFrame_quieted :
    x.rearFrame mic depth = ((x.promptsEnded mic).openWaiting depth).rampedFR.openWaiting depth := by
  rw [rearFrame_eq, promptStep_ends (x := x.rearRead mic) playing last alone, if_pos (by exact half)]
  rfl

/-- A CLOSED FR falls silent. -/
theorem rearFrame_quiets_fr (closed : x.fr.state = .closed) : (x.rearFrame mic depth).fr.gain = 0 := by
  have silent : ((x.promptsEnded mic).openWaiting depth).fr.gain = 0 := by
    rw [openWaiting_fr_gain, promptsEnded_fr (by simp [closed])]
  have shut : ((x.promptsEnded mic).openWaiting depth).fr.state = .closed := by simp [closed]
  have goal : ((x.promptsEnded mic).openWaiting depth).goalFR = 0 := (if_neg (by simp)).trans (if_neg (by simp [shut]))
  rw [rearFrame_quieted playing last alone half, openWaiting_fr_gain]
  exact TalkLaw.ramp_silent silent goal

/-- An RF that is not OPEN falls silent. -/
theorem rearFrame_quiets_rf (shut : x.rf.state ≠ .opened) : (x.rearFrame mic depth).rf.gain = 0 := by
  rw [rearFrame_quieted playing last alone half, openWaiting_rf_gain]
  show ((x.promptsEnded mic).openWaiting depth).rf.gain = 0
  rw [openWaiting_rf_gain, promptsEnded_rf shut]

/-- A WAITING RF whose other is CLOSED opens from closed. -/
theorem rearFrame_opens_rf (waits : x.rf.state = .waiting) (closed : x.fr.state = .closed) :
    (x.rearFrame mic depth).rf = (x.promptsEnded mic).rf.openFrom depth := by
  have opened : ((x.promptsEnded mic).openWaiting depth).rf = (x.promptsEnded mic).rf.openFrom depth :=
    openWaiting_rf_opens (by simp [waits]) (by rw [promptsEnded_fr (by simp [closed])]) depth
  have same : ((x.promptsEnded mic).openWaiting depth).rampedFR.rf = ((x.promptsEnded mic).openWaiting depth).rf := rfl
  rw [rearFrame_quieted playing last alone half, openWaiting_rf_stands (.inl (by simp [same, opened])), same, opened]

/-- A WAITING FR whose other is CLOSED opens from closed, and its ramp step leaves from a gain of 0. -/
theorem rearFrame_opens_fr (waits : x.fr.state = .waiting) (closed : x.rf.state = .closed) :
    (x.rearFrame mic depth).fr = (({ x.fr.read.2 with gain := 0 } : Path).openFrom depth).ramp x.fr.volume := by
  have opened : ((x.promptsEnded mic).openWaiting depth).fr = ({ x.fr.read.2 with gain := 0 } : Path).openFrom depth := by
    rw [openWaiting_fr_opens (by simp [waits]) (by rw [promptsEnded_rf (by simp [closed])]), promptsEnded_fr (by simp [waits])]
  have goal : ((x.promptsEnded mic).openWaiting depth).goalFR = x.fr.volume := by
    refine (if_neg (by simp)).trans ?_
    rw [opened]
    exact (if_pos rfl).trans (read_volume x.fr)
  have ramped : ((x.promptsEnded mic).openWaiting depth).rampedFR.fr
      = (({ x.fr.read.2 with gain := 0 } : Path).openFrom depth).ramp x.fr.volume := by
    unfold Intercom.rampedFR
    rw [goal, opened]
  rw [rearFrame_quieted playing last alone half, openWaiting_fr_stands (.inl (by simp [ramped])), ramped]

end

/-- A ramp step leaves what an opening sets (R150). -/
theorem ramp_keeps (x : Path) (goal : Nat) : (x.ramp goal).state = x.state ∧ (x.ramp goal).buffer = x.buffer
    ∧ (x.ramp goal).last = x.last ∧ (x.ramp goal).centring = x.centring ∧ (x.ramp goal).depth = x.depth := by
  rw [ramp_eq]
  exact ⟨rfl, rfl, rfl, rfl, rfl⟩

/-- One step of the gain from 0 (R150). -/
theorem ramp_from_silence {x : Path} (silent : x.gain = 0) (goal : Nat) :
    (x.ramp goal).gain = if 31 ≤ x.readCount ∧ 0 < goal then 1 else 0 := by
  rw [ramp_eq, silent]
  by_cases due : 31 ≤ x.readCount
  · by_cases up : 0 < goal
    · simp [due, up, towards_up]
    · simp [due, Nat.eq_zero_of_not_pos up]
  · simp [due]

/-! ### The statement -/

section
variable {s : State} (running : s.power = .running) (mic : Sample)
include running

theorem exec_frontCodecFrame : exec (.frontCodecFrame mic) s = .next (s.frontFrame mic) := congrArg Host.Outcome.next (whenRunning_eq running _)

theorem exec_rearCodecFrame : exec (.rearCodecFrame mic) s = .next (s.rearFrame mic) := congrArg Host.Outcome.next (whenRunning_eq running _)

/-- A frame at which a prompt plays its last sample is a rear frame (log entry 4). -/
theorem exec_promptEnd {x : Playing} (playing : s.intercom.playing = some x) (last : x.left ≤ 1) :
    exec (.promptEnd mic) s = .next (s.rearFrame mic) := by
  have ends : lastSample s.intercom.playing = true := by simp [playing, lastSample, ends_iff, last]
  exact congrArg Host.Outcome.next ((if_pos ends).trans (whenRunning_eq running _))

/-- A frame at which the chime plays its last sample is a front frame (log entry 4). -/
theorem exec_chimeEnd {x : Playing} (chime : s.intercom.chime = some x) (last : x.left ≤ 1) :
    exec (.chimeEnd mic) s = .next (s.frontFrame mic) := by
  have ends : lastSample s.intercom.chime = true := by simp [chime, lastSample, ends_iff, last]
  exact congrArg Host.Outcome.next ((if_pos ends).trans (whenRunning_eq running _))

end

/-- Settles O45: each row is a frame of a running part, and a frame is known by what it sends, by the paths of a plain frame, by the path
that opens in it, or by the tone that ends in it. -/
theorem codecFramesCarrySamples : Obligations.CodecFramesCarrySamples := by
  refine ⟨fun mic s running => ⟨?front, ?rear⟩, fun mic s running noChime noPrompt => ⟨fun waits closed one due => ?frOpens,
    fun waits closed one due => ?rfOpens⟩, fun mic x s running last => ⟨fun playing => ⟨fun tone rest behind => ?follows,
    fun alone => ?promptsEnd⟩, fun chime => ?chimeEnds⟩⟩
  case front =>
    obtain ⟨front, rear, monitor⟩ := frontFrame_sends s.intercom mic (s.alarm.state == .active) s.tariffs.config.depth
    refine ⟨_, exec_frontCodecFrame running mic, rfl, front, rear, fun silent => ?_, fun active select => ?_, fun active select => ?_,
      fun active select => ?_, fun goes fr rf => frontFrame_plain goes fr rf mic _ _⟩
    · exact monitor.trans (monitorSample_silent (silent.imp (fun quiet => by simp [quiet]) id) _ _)
    · exact monitor.trans (by rw [active, select]; rfl)
    · exact monitor.trans (by rw [active, select]; rfl)
    · refine (congrArg BitVec.toInt monitor).trans ?_
      rw [active, select]
      exact mixed_toInt _ _
  case rear =>
    obtain ⟨rear, front, monitor⟩ := rearFrame_sends s.intercom mic s.tariffs.config.depth
    exact ⟨_, exec_rearCodecFrame running mic, rfl, rear, front, monitor, fun goes fr rf => rearFrame_plain goes fr rf mic _⟩
  case frOpens =>
    obtain ⟨silent, opened⟩ := frontFrame_opens noChime waits closed one due mic (s.alarm.state == .active) s.tariffs.config.depth
    refine ⟨_, exec_frontCodecFrame running mic, silent, ?_⟩
    rw [show (s.frontFrame mic).intercom.fr = _ from opened]
    exact ⟨rfl, rfl, rfl, rfl, rfl, write_gain _ _⟩
  case rfOpens =>
    obtain ⟨silent, opened⟩ := rearFrame_opens noPrompt waits closed one due mic s.tariffs.config.depth
    refine ⟨_, exec_rearCodecFrame running mic, silent, ?_⟩
    rw [show (s.rearFrame mic).intercom.rf = _ from opened]
    exact ⟨rfl, rfl, rfl, rfl, rfl, write_gain _ _⟩
  case follows =>
    obtain ⟨begun, rest⟩ := rearFrame_follows playing last behind mic s.tariffs.config.depth
    exact ⟨_, exec_promptEnd running mic playing last, begun, rest, rfl⟩
  case promptsEnd =>
    obtain ⟨ended, empty⟩ := rearFrame_promptsEnd playing last alone mic s.tariffs.config.depth
    refine ⟨_, exec_promptEnd running mic playing last, ended, empty, fun mode => ?_, rfl⟩
    have half : s.intercom.mode.halfDuplex = true := by rcases mode with mode | mode <;> rw [mode] <;> rfl
    refine ⟨rearFrame_quiets_fr playing last alone half mic _, rearFrame_quiets_rf playing last alone half mic _,
      fun waits closed => ?_, fun waits closed => ?_⟩
    · rw [show (s.rearFrame mic).intercom.rf = _ from rearFrame_opens_rf playing last alone half mic _ waits closed]
      exact ⟨rfl, rfl, rfl, rfl, rfl⟩
    · rw [show (s.rearFrame mic).intercom.fr = _ from rearFrame_opens_fr playing last alone half mic _ waits closed]
      obtain ⟨state, buffer, lastSample, centring, depth⟩ := ramp_keeps
        (({ s.intercom.fr.read.2 with gain := 0 } : Path).openFrom s.tariffs.config.depth) s.intercom.fr.volume
      refine ⟨state, buffer, lastSample, centring, depth, (ramp_from_silence rfl _).trans ?_⟩
      simp [Path.openFrom]
  case chimeEnds =>
    obtain ⟨ended, closes⟩ := frontFrame_chimeEnds chime last mic (s.alarm.state == .active) s.tariffs.config.depth
    exact ⟨_, exec_chimeEnd running mic chime last, ended, rfl, closes⟩

end Sys2Proof.Machine
end

section
/-! SET_TALK_MODE (R154, R155): the wanted paths, what entering a mode makes of each path, with its statement. -/

namespace Sys2Proof.Machine

/-! ### The wanted paths -/

theorem wantsFR_iff (x : Intercom) : x.wantsFR = true
    ↔ x.mode = .duplex ∨ (x.mode = .ptt ∨ x.mode = .privateTalk) ∧ x.held = true := by
  unfold Intercom.wantsFR
  cases mode : x.mode <;> simp

theorem wantsRF_iff (x : Intercom) : x.wantsRF = true
    ↔ x.mode = .duplex ∨ x.held = false ∧ (x.mode = .ptt ∨ x.mode = .privateTalk ∧ x.chime.isSome = true) := by
  unfold Intercom.wantsRF
  cases mode : x.mode <;> simp

/-- In DUPLEX a wanted path is OPEN at once (R154). -/
theorem derived_full_opened (x : Path) (depth : Nat) : (x.derived true false depth).state = .opened := by
  by_cases opened : x.state = .opened
  · rw [derived_opened opened]
    exact opened
  · rw [derived_full opened]
    rfl

/-! ### Entering a mode -/

/-- The mode taken, and the chime ended by a mode that leaves PRIVATE (R154). -/
def Intercom.entering (x : Intercom) (m : TalkMode) : Intercom :=
  { x with mode := m, chime := if m = .privateTalk then x.chime else none }

/-- The wanted paths derived in a new mode, with the quieting when it is called for (R154, R155). -/
def Intercom.entered (x : Intercom) (m : TalkMode) (depth : Nat) : Intercom :=
  if needsQuiet x.mode m then ((x.entering m).derive depth).quiet else (x.entering m).derive depth

theorem enterMode_eq (x : Intercom) (m : TalkMode) (depth : Nat) : x.enterMode m depth = (x.entered m depth).openWaiting depth := rfl

/-- A new mode touches the mode, the chime and the paths. -/
theorem enterMode_out (x : Intercom) (m : TalkMode) (depth : Nat) : x.enterMode m depth = { x with
    mode := m, chime := if m = .privateTalk then x.chime else none, fr := (x.enterMode m depth).fr, rf := (x.enterMode m depth).rf } := by
  unfold Intercom.enterMode
  dsimp only
  split <;> rfl

theorem entered_fr_state (x : Intercom) (m : TalkMode) (depth : Nat) :
    (x.entered m depth).fr.state = (x.fr.derived (x.entering m).wantsFR m.halfDuplex depth).state := by
  unfold Intercom.entered
  split
  · exact quiet_fr_state _
  · rfl

theorem entered_rf_state (x : Intercom) (m : TalkMode) (depth : Nat) :
    (x.entered m depth).rf.state = (x.rf.derived (x.entering m).wantsRF m.halfDuplex depth).state := by
  unfold Intercom.entered
  split
  · exact quiet_rf_state _
  · rfl

/-- A path is CLOSED in a new mode exactly when the mode does not want it. -/
theorem enterMode_fr_closed_iff (x : Intercom) (m : TalkMode) (depth : Nat) :
    (x.enterMode m depth).fr.state = .closed ↔ (x.entering m).wantsFR = false := by
  rw [enterMode_eq, openWaiting_fr_closed_iff, entered_fr_state, derived_closed]

theorem enterMode_rf_closed_iff (x : Intercom) (m : TalkMode) (depth : Nat) :
    (x.enterMode m depth).rf.state = .closed ↔ (x.entering m).wantsRF = false := by
  rw [enterMode_eq, openWaiting_rf_closed_iff, entered_rf_state, derived_closed]

/-- DUPLEX opens both paths (R154). -/
theorem enterMode_duplex (x : Intercom) (depth : Nat) :
    (x.enterMode .duplex depth).fr.state = .opened ∧ (x.enterMode .duplex depth).rf.state = .opened := by
  rw [enterMode_eq, openWaiting_fr_opened_iff, openWaiting_rf_opened_iff, entered_fr_state, entered_rf_state]
  exact ⟨.inl (derived_full_opened _ _), .inl (derived_full_opened _ _)⟩

/-- An OPEN path that the new mode wants stands, and is not quieted (R154, R155). -/
theorem enterMode_fr_stands {x : Intercom} {m : TalkMode} {depth : Nat} (opened : x.fr.state = .opened)
    (wanted : (x.enterMode m depth).fr.state ≠ .closed) : (x.enterMode m depth).fr = x.fr := by
  have derived : ((x.entering m).derive depth).fr = x.fr := by
    rw [Ne, enterMode_fr_closed_iff, Bool.not_eq_false] at wanted
    show x.fr.derived (x.entering m).wantsFR m.halfDuplex depth = x.fr
    rw [wanted, derived_opened opened]
  have stands : (x.entered m depth).fr = x.fr := by
    unfold Intercom.entered
    split
    · show (if x.playing.isSome then _ else _ : Path) = _
      rw [derived, silence_opened opened, ite_self]
    · exact derived
  rw [enterMode_eq, openWaiting_fr_stands (.inl (by simp [stands, opened])), stands]

theorem enterMode_rf_stands {x : Intercom} {m : TalkMode} {depth : Nat} (opened : x.rf.state = .opened)
    (wanted : (x.enterMode m depth).rf.state ≠ .closed) : (x.enterMode m depth).rf = x.rf := by
  have derived : ((x.entering m).derive depth).rf = x.rf := by
    rw [Ne, enterMode_rf_closed_iff, Bool.not_eq_false] at wanted
    show x.rf.derived (x.entering m).wantsRF m.halfDuplex depth = x.rf
    rw [wanted, derived_opened opened]
  have stands : (x.entered m depth).rf = x.rf := by
    unfold Intercom.entered
    split
    · show ((x.entering m).derive depth).rf.silence = _
      rw [derived, silence_opened opened]
    · exact derived
  rw [enterMode_eq, openWaiting_rf_stands (.inl (by simp [stands, opened])), stands]

/-- With push-to-talk HELD the driver's path alone is wanted in PTT and PRIVATE (R154). -/
theorem enterMode_held {x : Intercom} (held : x.held = true) {m : TalkMode} (half : m = .ptt ∨ m = .privateTalk) (depth : Nat) :
    (x.enterMode m depth).fr.state ≠ .closed ∧ (x.enterMode m depth).rf.state = .closed := by
  rw [Ne, enterMode_fr_closed_iff, enterMode_rf_closed_iff]
  rcases half with rfl | rfl <;> simp [Intercom.wantsFR, Intercom.wantsRF, Intercom.entering, held]

/-! ### Entering PTT or PRIVATE from OFF or DUPLEX -/

theorem needsQuiet_iff (old new : TalkMode) : needsQuiet old new = true
    ↔ (new = .ptt ∨ new = .privateTalk) ∧ (old = .off ∨ old = .duplex) := by
  cases old <;> cases new <;> decide

section
variable {x : Intercom} {m : TalkMode} (needs : needsQuiet x.mode m = true) (depth : Nat)
include needs

theorem entered_quieted : x.entered m depth = ((x.entering m).derive depth).quiet := if_pos needs

/-- An RF that is not OPEN is silent. -/
theorem enterMode_silences_rf (shut : (x.enterMode m depth).rf.state ≠ .opened) : (x.enterMode m depth).rf.gain = 0 := by
  rw [enterMode_eq, entered_quieted needs] at shut ⊢
  rw [openWaiting_rf_gain]
  refine quiet_rf_gain fun opened => shut ?_
  exact (openWaiting_rf_opened_iff _ _).2 (.inl ((quiet_rf_state _).trans opened))

/-- So is an FR that is not OPEN, with no prompt playing. -/
theorem enterMode_silences_fr (none : x.playing = none) (shut : (x.enterMode m depth).fr.state ≠ .opened) :
    (x.enterMode m depth).fr.gain = 0 := by
  rw [enterMode_eq, entered_quieted needs] at shut ⊢
  rw [openWaiting_fr_gain]
  refine quiet_fr_gain none fun opened => shut ?_
  exact (openWaiting_fr_opened_iff _ _).2 (.inl ((quiet_fr_state _).trans opened))

/-- FR is excepted while a prompt plays. -/
theorem enterMode_excepts_fr (playing : x.playing.isSome = true) : (x.enterMode m depth).fr.gain = x.fr.gain := by
  rw [enterMode_eq, entered_quieted needs, openWaiting_fr_gain, quiet_fr_playing (by exact playing)]
  exact derived_gain _ _ _ _

/-- One path is not wanted, and so one is silent. -/
theorem enterMode_one_silent (none : x.playing = none) : (x.enterMode m depth).fr.gain = 0 ∨ (x.enterMode m depth).rf.gain = 0 := by
  have half : (x.entering m).mode.halfDuplex = true := by
    obtain ⟨ptt | talk, -⟩ := (needsQuiet_iff _ _).1 needs
    · exact congrArg TalkMode.halfDuplex ptt
    · exact congrArg TalkMode.halfDuplex talk
  refine (wants_one half).imp (fun unwanted => ?_) fun unwanted => ?_
  · exact enterMode_silences_fr needs depth none (by simp [(enterMode_fr_closed_iff x m depth).2 unwanted])
  · exact enterMode_silences_rf needs depth (by simp [(enterMode_rf_closed_iff x m depth).2 unwanted])

end

/-! ### The request -/

/-- A byte is none of the values below it. -/
theorem ne_of_above {value b : Byte} (above : b.toNat < value.toNat) : value ≠ b := by
  rintro rfl
  exact absurd above (Nat.lt_irrefl _)

theorem talkModeOf_above {mode : Byte} (above : 3 < mode.toNat) : talkModeOf mode = none := by
  have differs : ∀ b : Byte, b.toNat ≤ 3 → mode ≠ b := fun b small => ne_of_above (by omega)
  unfold talkModeOf
  rw [if_neg (differs 0 (by decide)), if_neg (differs 1 (by decide)), if_neg (differs 2 (by decide)), if_neg (differs 3 (by decide))]

theorem setTalkModeOwner_taken {mode : Byte} {m : TalkMode} {s : State} (listed : talkModeOf mode = some m) (new : m ≠ s.intercom.mode) :
    setTalkModeOwner mode s = done { s with intercom := s.intercom.enterMode m s.tariffs.config.depth } [] := by
  unfold setTalkModeOwner
  rw [listed]
  exact if_neg new

theorem setTalkModeOwner_held {mode : Byte} {s : State} (listed : talkModeOf mode = some s.intercom.mode) :
    setTalkModeOwner mode s = done s [] := by
  unfold setTalkModeOwner
  rw [listed]
  exact if_pos rfl

theorem setTalkModeOwner_range {mode : Byte} (above : 3 < mode.toNat) (s : State) : setTalkModeOwner mode s = (s, .refuse .range) := by
  unfold setTalkModeOwner
  rw [talkModeOf_above above]

/-- Settles O46: the states by what the new mode wants, the gains by the quieting, the rest by what a new mode touches. -/
theorem talkModesDecideTheWantedPaths : Obligations.TalkModesDecideTheWantedPaths := by
  intro tag mode s ready
  refine ⟨fun m listed new => ⟨_, request_answers ready rfl (setTalkModeOwner_taken listed new), ?_⟩,
    fun listed => request_answers ready rfl (setTalkModeOwner_held listed),
    fun above => request_answers ready rfl (setTalkModeOwner_range above s)⟩
  have out := enterMode_out s.intercom m s.tariffs.config.depth
  have fr := enterMode_fr_closed_iff s.intercom m s.tariffs.config.depth
  have rf := enterMode_rf_closed_iff s.intercom m s.tariffs.config.depth
  have frStands : s.intercom.fr.state = .opened → (s.intercom.enterMode m s.tariffs.config.depth).fr.state = .opened →
      (s.intercom.enterMode m s.tariffs.config.depth).fr = s.intercom.fr := fun opened still =>
    enterMode_fr_stands opened (by simp [still])
  have rfStands : s.intercom.rf.state = .opened → (s.intercom.enterMode m s.tariffs.config.depth).rf.state = .opened →
      (s.intercom.enterMode m s.tariffs.config.depth).rf = s.intercom.rf := fun opened still =>
    enterMode_rf_stands opened (by simp [still])
  have playing := congrArg Intercom.playing out
  have waiting := congrArg Intercom.waiting out
  refine ⟨congrArg Intercom.mode out, ?off, ?duplex, ?pttHeld, ?pttReleased, ?privateHeld, ?privateReleased,
    fun half whole => enterMode_one_silent ((needsQuiet_iff _ _).2 ⟨half, whole⟩) _, fun half whole => ?quieted,
    fun opened still => congrArg Path.gain (frStands opened still), fun opened still => congrArg Path.gain (rfStands opened still),
    fun other => (congrArg Intercom.chime out).trans (if_neg other), playing, waiting, rfl, rfl⟩
  case off =>
    rintro rfl
    exact ⟨fr.2 rfl, rf.2 rfl⟩
  case duplex =>
    rintro rfl
    exact enterMode_duplex _ _
  case pttHeld => exact fun ptt held => enterMode_held held (.inl ptt) _
  case pttReleased =>
    rintro rfl released
    exact ⟨rf.not.2 (by simp [Intercom.wantsRF, Intercom.entering, released]),
      fr.2 (by simp [Intercom.wantsFR, Intercom.entering, released])⟩
  case privateHeld => exact fun talk held => enterMode_held held (.inr talk) _
  case privateReleased =>
    rintro rfl released silent
    exact ⟨fr.2 (by simp [Intercom.wantsFR, Intercom.entering, released]),
      rf.2 (by simp [Intercom.wantsRF, Intercom.entering, silent])⟩
  case quieted =>
    have needs := (needsQuiet_iff s.intercom.mode m).2 ⟨half, whole⟩
    exact ⟨enterMode_silences_rf needs _, fun shut none => enterMode_silences_fr needs _ none shut,
      enterMode_excepts_fr needs _⟩

end Sys2Proof.Machine
end

section
/-! SET_VOLUME, POST_PROMPT, SET_MONITOR, READ_INTERCOM and INTERCOM_CLEAR (R157, R160 to R164), with their statement. -/

namespace Sys2Proof.Machine

/-! ### SET_VOLUME -/

theorem pathOf_above {path : Byte} (above : 1 < path.toNat) : pathOf path = none := by
  unfold pathOf
  rw [if_neg (ne_of_above (b := 0) (by simp; omega)), if_neg (ne_of_above (b := 1) (by simp; omega))]

theorem setVolumeOwner_stored {path value : Byte} {i : PathId} {s : State} (named : pathOf path = some i) (small : value.toNat ≤ 15) :
    setVolumeOwner path value s
      = done { s with intercom := s.intercom.withVolume i value.toNat } [BitVec.ofNat 8 (s.intercom.path i).gain] := by
  unfold setVolumeOwner
  rw [named]
  exact checked_ok (by simp [firstRefusal, small])

theorem setVolumeOwner_range {path value : Byte} (wrong : 1 < path.toNat ∨ 15 < value.toNat) (s : State) :
    setVolumeOwner path value s = (s, .refuse .range) := by
  unfold setVolumeOwner
  cases named : pathOf path with
  | none => rfl
  | some i =>
    have above : 15 < value.toNat := wrong.resolve_left fun above => by simp [pathOf_above above] at named
    exact checked_no (by simp [firstRefusal, Nat.not_le.2 above])

/-! ### POST_PROMPT -/

/-- The checks of POST_PROMPT (R160). -/
theorem postPromptOwner_queued {tone : Byte} {s : State} (listed : tone.toNat ≤ 2) (room : s.intercom.prompts.length < 2) :
    postPromptOwner tone s
      = done { s with intercom := s.intercom.post tone.toNat } [BitVec.ofNat 8 (s.intercom.prompts.length + 1)] :=
  checked_ok (by simp [firstRefusal, listed, room])

theorem postPromptOwner_full {tone : Byte} {s : State} (listed : tone.toNat ≤ 2) (full : 2 ≤ s.intercom.prompts.length) :
    postPromptOwner tone s = (s, .refuse .full) :=
  checked_no (by simp [firstRefusal, listed, Nat.not_lt.2 full])

theorem postPromptOwner_range {tone : Byte} (above : 2 < tone.toNat) (s : State) : postPromptOwner tone s = (s, .refuse .range) :=
  checked_no (by simp [firstRefusal, Nat.not_le.2 above])

theorem prompts_length (x : Intercom) : x.prompts.length = (if x.playing.isSome then 1 else 0) + x.waiting.length := by
  unfold Intercom.prompts
  cases x.playing <;> simp [Nat.add_comm]

/-- The first prompt begins at once (R160, R161). -/
theorem post_first {x : Intercom} (none : x.playing = none) (tone : Nat) :
    x.post tone = { x with playing := some (Playing.begin tone) } := by
  unfold Intercom.post
  rw [none]

/-- The next waits behind it (R160). -/
theorem post_behind {x : Intercom} (playing : x.playing.isSome = true) (alone : x.waiting = []) (tone : Nat) :
    x.post tone = { x with waiting := [tone] } := by
  obtain ⟨t, is⟩ := Option.isSome_iff_exists.1 playing
  unfold Intercom.post
  rw [is, alone]
  rfl

/-! ### SET_MONITOR -/

theorem monitorOf_above {select : Byte} (above : 3 < select.toNat) : monitorOf select = none := by
  have differs : ∀ b : Byte, b.toNat ≤ 3 → select ≠ b := fun b small => ne_of_above (by omega)
  unfold monitorOf
  rw [if_neg (differs 0 (by decide)), if_neg (differs 1 (by decide)), if_neg (differs 2 (by decide)), if_neg (differs 3 (by decide))]

theorem setMonitorOwner_stored {select : Byte} {m : MonitorSelect} (listed : monitorOf select = some m) (s : State) :
    setMonitorOwner select s = done { s with intercom := { s.intercom with monitor := m } } [] := by
  unfold setMonitorOwner
  rw [listed]

theorem setMonitorOwner_range {select : Byte} (above : 3 < select.toNat) (s : State) :
    setMonitorOwner select s = (s, .refuse .range) := by
  unfold setMonitorOwner
  rw [monitorOf_above above]

/-! ### INTERCOM_CLEAR -/

/-- A cleared path that the mode wants is open from closed, and one it does not want is closed (R164). -/
def Path.afterClear (x : Path) (wanted : Bool) (depth : Nat) : Path :=
  if wanted then (x.cleared depth).openFrom depth else x.cleared depth

/-- After the derivation and the opening, with the other path silent. -/
theorem cleared_settles (x : Path) {other : Path} (silent : other.gain = 0) (wanted half : Bool) (depth : Nat) :
    (if ((x.cleared depth).derived wanted half depth).mayOpen other then ((x.cleared depth).derived wanted half depth).openFrom depth
      else (x.cleared depth).derived wanted half depth) = x.afterClear wanted depth := by
  have shut : (x.cleared depth).state ≠ .opened := by simp [Path.cleared]
  cases wanted with
  | false =>
    rw [derived_unwanted, if_neg (by simp [mayOpen_iff])]
    rfl
  | true =>
    cases half with
    | false =>
      rw [derived_full shut, if_neg (by simp [mayOpen_iff])]
      rfl
    | true =>
      rw [derived_half shut, if_pos ((mayOpen_iff _ _).2 ⟨rfl, silent⟩)]
      rfl

/-- What a path holds after a clear (R164). -/
theorem afterClear_out (x : Path) (wanted : Bool) (depth : Nat) : x.afterClear wanted depth = { x.cleared depth with
    state := if wanted then .opened else .closed, centring := wanted } := by
  unfold Path.afterClear
  cases wanted <;> rfl

/-- The intercom with its paths, prompts and chime cleared, before the wanted paths are derived (R164). -/
def Intercom.emptied (x : Intercom) (depth : Nat) : Intercom :=
  { x with fr := x.fr.cleared depth, rf := x.rf.cleared depth, playing := none, waiting := [], chime := none }

theorem clear_out (x : Intercom) (depth : Nat) : x.clear depth = { x.emptied depth with
    fr := x.fr.afterClear (x.emptied depth).wantsFR depth, rf := x.rf.afterClear (x.emptied depth).wantsRF depth } := by
  have fr : (x.clear depth).fr = x.fr.afterClear (x.emptied depth).wantsFR depth :=
    cleared_settles x.fr (derived_gain _ _ _ _) _ _ depth
  have rf : (x.clear depth).rf = x.rf.afterClear (x.emptied depth).wantsRF depth :=
    cleared_settles x.rf (derived_gain _ _ _ _) _ _ depth
  rw [← fr, ← rf]
  rfl

/-- The values a clear gives each path, and the state and centring that follow (R164). -/
theorem clear_path (x : Intercom) (depth : Nat) (y : Path) (one : y = (x.clear depth).fr ∨ y = (x.clear depth).rf) :
    y.state ≠ .waiting ∧ y.buffer = [] ∧ y.last = 0 ∧ y.gain = 0 ∧ y.readCount = 0 ∧ y.overflows = 0 ∧ y.underflows = 0 ∧ y.peak = 0
      ∧ y.depth = depth ∧ (y.centring = true ↔ y.state = .opened) := by
  obtain ⟨x, wanted, rfl⟩ : ∃ (z : Path) (wanted : Bool), y = z.afterClear wanted depth := by
    rw [clear_out] at one
    rcases one with one | one <;> exact ⟨_, _, one⟩
  rw [afterClear_out]
  refine ⟨?_, rfl, rfl, rfl, rfl, rfl, rfl, rfl, rfl, ?_⟩ <;> cases wanted <;> simp

theorem afterClear_opened_iff (x : Path) (wanted : Bool) (depth : Nat) : (x.afterClear wanted depth).state = .opened ↔ wanted = true := by
  rw [afterClear_out]
  cases wanted <;> simp

/-- FR is open after a clear where the mode wants it (R154, R164). -/
theorem clear_fr_opened_iff (x : Intercom) (depth : Nat) : (x.clear depth).fr.state = .opened
    ↔ x.mode = .duplex ∨ (x.mode = .ptt ∨ x.mode = .privateTalk) ∧ x.held = true := by
  rw [clear_out]
  exact (afterClear_opened_iff _ _ _).trans (wantsFR_iff _)

/-- So is RF, which nothing asks for in PRIVATE with the chime gone. -/
theorem clear_rf_opened_iff (x : Intercom) (depth : Nat) : (x.clear depth).rf.state = .opened
    ↔ x.mode = .duplex ∨ x.mode = .ptt ∧ x.held = false := by
  rw [clear_out]
  refine (afterClear_opened_iff _ _ _).trans ((wantsRF_iff _).trans ?_)
  simp [Intercom.emptied, and_comm]

/-! ### The statement -/

/-- Settles O47: each request by its owner's work in each case of its checks, INTERCOM_CLEAR by what a clear leaves. -/
theorem intercomRequestsStoreReadAndClear : Obligations.IntercomRequestsStoreReadAndClear := by
  refine ⟨fun tag value s => ⟨fun ready small => ⟨?_, ?_⟩, fun path ready wrong => ?_, fun ready listed => ⟨fun none alone => ?_,
    fun playing alone => ?_, fun playing queued => ?_⟩, fun ready above => ?_, fun ready => ⟨fun m listed => ?_, fun above => ?_⟩⟩,
    fun tag s => ⟨fun ready => ?_, fun p offered ready => ?_⟩⟩
  · exact request_answers ready rfl (setVolumeOwner_stored (i := .fr) rfl small)
  · exact request_answers ready rfl (setVolumeOwner_stored (i := .rf) rfl small)
  · exact request_answers ready rfl (setVolumeOwner_range wrong s)
  · have length : s.intercom.prompts.length = 0 := by simp [prompts_length, none, alone]
    have taken := postPromptOwner_queued (s := s) listed (by omega)
    rw [post_first none, length] at taken
    exact request_answers ready rfl taken
  · have length : s.intercom.prompts.length = 1 := by simp [prompts_length, playing, alone]
    have taken := postPromptOwner_queued (s := s) listed (by omega)
    rw [post_behind playing alone, length] at taken
    exact request_answers ready rfl taken
  · have two : 2 ≤ s.intercom.prompts.length := by
      have behind := List.length_pos_iff.2 queued
      rw [prompts_length, if_pos playing]
      omega
    exact request_answers ready rfl (postPromptOwner_full listed two)
  · exact request_answers ready rfl (postPromptOwner_range above s)
  · exact request_answers ready rfl (setMonitorOwner_stored listed s)
  · exact request_answers ready rfl (setMonitorOwner_range above s)
  · exact request_answers ready rfl rfl
  · have out := clear_out s.intercom s.tariffs.config.depth
    have volumes : (s.intercom.clear s.tariffs.config.depth).fr.volume = s.intercom.fr.volume
        ∧ (s.intercom.clear s.tariffs.config.depth).rf.volume = s.intercom.rf.volume := by
      rw [out, afterClear_out, afterClear_out]
      exact ⟨rfl, rfl⟩
    refine ⟨_, request_answers ready offered rfl, clear_path s.intercom _, clear_fr_opened_iff _ _, clear_rf_opened_iff _ _, rfl, rfl, rfl,
      rfl, rfl, rfl, volumes.1, volumes.2, congrArg Port.reply (port_putPort_same _ _ _), rfl⟩

end Sys2Proof.Machine
end

section
/-! What the console sees of two states apart in the alarm alone (R172), first before any event and in what the owners of requests do. -/

namespace Sys2Proof.Machine

/-! ### States apart in the alarm -/

/-- States apart in the alarm alone are those with one covert form. -/
theorem alarmApart_iff (s u : State) : AlarmApart s u ↔ u.covert = s.covert := by
  constructor
  · intro apart
    rw [apart]
    rfl
  · intro same
    have restored : AlarmApart u.covert u := rfl
    rw [same] at restored
    exact restored

/-- What a state tells beside what the alarm may differ in, it tells alike with one covert form. -/
theorem read_alike {α : Type} {f : State → α} (blind : ∀ x : State, f x.covert = f x) {t v : State} (same : v.covert = t.covert) :
    f v = f t := by
  rw [← blind v, same, blind t]

/-- All that the console sees of a state: its port, the indicators and its attention line. -/
def State.consoleView (s : State) : Port × BitVec 4 × Bool := (s.port .console, s.indicators, attention s .console)

/-- The console sees nothing of what the alarm may differ in. -/
theorem consoleView_of_covert {t v : State} (same : v.covert = t.covert) : v.consoleView = t.consoleView :=
  read_alike (fun _ => rfl) same

theorem consoleView_eq_iff (t v : State) : v.consoleView = t.consoleView ↔
    v.port .console = t.port .console ∧ v.indicators = t.indicators ∧ attention v .console = attention t .console := by
  simp [State.consoleView]

/-! ### The owners of requests -/

/-- An owner that the alarm cannot reach: its work on every port, and its reply on the ports other than Fleet that its kind is offered
on. -/
def Unaware (p : PortId) (k : Kind) (w : Owner) : Prop := BlindOwner w ∧ (p ≠ .fleet → k.offered p = true → BlindReply w)

theorem Unaware.of {p : PortId} {k : Kind} {w : Owner} (work : BlindOwner w) (reply : BlindReply w) : Unaware p k w :=
  ⟨work, fun _ _ => reply⟩

/-- A kind offered on the Fleet port alone may tell of the alarm in its reply. -/
theorem Unaware.ofFleet {p : PortId} {k : Kind} {w : Owner} (console : k.offered .console = false) (payment : k.offered .payment = false)
    (work : BlindOwner w) : Unaware p k w := by
  refine ⟨work, fun other offered => ?_⟩
  cases p with
  | console => exact absurd (console.symm.trans offered) Bool.false_ne_true
  | payment => exact absurd (payment.symm.trans offered) Bool.false_ne_true
  | fleet => exact absurd rfl other

theorem unaware_refusedBy (p : PortId) (k : Kind) (c : Code) : Unaware p k (refusedBy c) := .of (.still fun _ => rfl) fun _ => rfl

theorem blindOwner_setClockPayload (pl : List Byte) : BlindOwner (setClockPayload pl) :=
  .either .setClockRead (.setClock _)

/-- Of the owners of requests only CLEAR_PART's can be reached by the alarm (R172, R192). -/
theorem ownerOf_unaware (p : PortId) (pl : List Byte) (k : Kind) (notClear : k ≠ .clearPart) : Unaware p k (ownerOf p pl k) :=
  match k with
  | .openShift => .of (.openShift _) (.openShift _)
  | .closeShift => .of .closeShift .closeShift
  | .setPooling => .ofFleet rfl rfl (.setPooling _)
  | .readShift => .of (.still fun _ => rfl) .readShift
  | .latchCounters => .of (.latchCounters _) (.latchCounters _)
  | .readCounter => ⟨.readCounter _ _, fun other _ => .readCounter _ _ other⟩
  | .book => .ofFleet rfl rfl (.book _ _ _)
  | .cancelBooking => .ofFleet rfl rfl (.cancelBooking _)
  | .startHire => .of (.startHire _ _) (.startHire _ _)
  | .suspend => .of (.suspend _) (.suspend _)
  | .resume => .of (.resume _) (.resume _)
  | .stopHire => .of (.stopHire _) (.stopHire _)
  | .addExtra => .of (.addExtra _ _) (.addExtra _ _)
  | .removeExtra => .of (.removeExtra _ _) (.removeExtra _ _)
  | .closeUnpaid => .of (.closeUnpaid _) (.closeUnpaid _)
  | .readHire => .of (.readHire _ _) (.readHire _ _)
  | .claim => .of (.claim _ _) (.claim _ _)
  | .release => .of (.release _ _) (.release _ _)
  | .beginPayment => .of (.beginPayment _ _ _ _ _) (.beginPayment _ _ _ _ _)
  | .paymentResult => .of (.paymentResult _ _) (.paymentResult _ _)
  | .reverse => .of (.reverse _ _ _) (.reverse _ _ _)
  | .postCash => .of (.postCash _ _ _) (.postCash _ _ _)
  | .load => .ofFleet rfl rfl (.load _)
  | .compare => .ofFleet rfl rfl (.compare _)
  | .activate => .ofFleet rfl rfl .activate
  | .readTariff => .ofFleet rfl rfl (.readTariff _ _ _)
  | .setConfig => .ofFleet rfl rfl (.setConfig _)
  | .setClock => .ofFleet rfl rfl (blindOwner_setClockPayload _)
  | .readJournal => .ofFleet rfl rfl (.readJournal _)
  | .ackJournal => .ofFleet rfl rfl (.ackJournal _)
  | .readUnfiled => .ofFleet rfl rfl .readUnfiled
  | .ackUnfiled => .ofFleet rfl rfl (.ackUnfiled _)
  | .signOverride => .of (.signOverride _) (.signOverride _)
  | .signTest => .ofFleet rfl rfl (.signTest _)
  | .signClear => .ofFleet rfl rfl .signClearRequest
  | .setTalkMode => .of (.setTalkMode _) (.setTalkMode _)
  | .setVolume => .of (.setVolume _ _) (.setVolume _ _)
  | .readIntercom => .of .readIntercom .readIntercom
  | .intercomClear => .of .intercomClear .intercomClear
  | .postPrompt => .of (.postPrompt _) (.postPrompt _)
  | .setMonitor => .ofFleet rfl rfl (.setMonitor _)
  | .alarmStandDown => .ofFleet rfl rfl .alarmStandDown
  | .readAlarmLog => .ofFleet rfl rfl .readAlarmLog
  | .clearPart => absurd rfl notClear
  | .setIndicators => .ofFleet rfl rfl (.setIndicators _ _)
  | .readIndicators => .of (.still fun _ => rfl) .readIndicators
  | .ackNotices => ⟨.ackNotices _ _, fun other _ => .ackNotices _ _ other⟩
  | .setNoticeMask => .of (.setNoticeMask _ _) (.setNoticeMask _ _)
  | .setStageMask => .of (.setStageMask _ _) (.setStageMask _ _)
  | .null => .of (.still fun _ => rfl) fun _ => rfl

theorem checkedOwner_unaware (p : PortId) (pl : List Byte) (k : Kind) (notClear : k ≠ .clearPart) :
    Unaware p k (checkedOwner p pl k) := by
  unfold checkedOwner
  split
  · exact ownerOf_unaware p pl k notClear
  · exact unaware_refusedBy p k _

/-! ### CLEAR_PART -/

/-- CLEAR_PART does nothing that the console sees (R193). -/
theorem clearPartOwner_consoleView (s : State) : (clearPartOwner s).1.consoleView = s.consoleView := by
  unfold clearPartOwner
  exact checked_keeps (P := fun t => t.consoleView = s.consoleView) _ (fun _ => rfl) rfl

/-- With the alarms in one state CLEAR_PART does the same work (R192). -/
theorem clearPartOwner_covert {s u : State} (same : u.covert = s.covert) (alarm : u.alarm.state = s.alarm.state) :
    (clearPartOwner u).1.covert = (clearPartOwner s).1.covert := by
  have busy : u.storeBusy = s.storeBusy := read_alike (fun _ => rfl) same
  have shift : u.shift = s.shift := read_alike (fun _ => rfl) same
  have accepted : Blind fun x => { x.closeChain with partClear := if x.journal.recoveryDue then .waiting else .plain } := fun _ => rfl
  unfold clearPartOwner checked
  rw [busy, shift, alarm]
  split
  · exact same
  · exact accepted.alike same

end Sys2Proof.Machine
end

section
/-! Requests, transfers and events on two states apart in the alarm alone (R172), with the statement that the console learns nothing of
the alarm. -/

namespace Sys2Proof.Machine

/-! ### Requests -/

/-- A request whose owner the alarm cannot reach. -/
theorem Framed.request {same : Prop} {s u : State} (h : Framed same s u) {p : PortId} {k : Kind} {owner : Owner}
    (unaware : Unaware p k owner) (kind tag : Byte) :
    (admitRequest p kind tag (k.offered p) owner u).covert = (admitRequest p kind tag (k.offered p) owner s).covert := by
  obtain ⟨work, reply⟩ := unaware
  exact h.admitted (fun _ => work.alike h.covert) fun other offered => (reply other offered).alike h.covert

/-- CLEAR_PART on both: with the alarms in one state on the Fleet port, and on a port that is not offered it in any (R180, R192). -/
theorem Framed.clearPart {same : Prop} {s u : State} (h : Framed same s u) {p : PortId} (alarms : p = .fleet → same) (kind tag : Byte)
    {owner : Owner} (clears : owner = clearPartOwner ∨ owner = refusedBy .range) :
    (admitRequest p kind tag (Kind.offered .clearPart p) owner u).covert
      = (admitRequest p kind tag (Kind.offered .clearPart p) owner s).covert := by
  have fleetOnly : Kind.offered .clearPart p = true → p = .fleet := by cases p <;> decide
  refine h.admitted (fun offered => ?_) fun other offered => absurd (fleetOnly offered) other
  rcases clears with rfl | rfl
  · exact clearPartOwner_covert h.covert (h.alarm (alarms (fleetOnly offered)))
  · exact h.covert

theorem admitNull_blind (p : PortId) (tag : Byte) : Blind fun s => admitNull p tag s := by
  have refused : Blind fun s => s.refuse p tag .busy := by cases p <;> exact fun _ => rfl
  have taken : Blind fun s => s.takeNull p := by cases p <;> exact fun _ => rfl
  intro s
  dsimp only
  unfold admitNull
  rw [show s.covert.power = s.power from rfl]
  cases s.power with
  | frozen => rfl
  | failing => exact refused s
  | running => exact taken s

/-- Only the kind byte of CLEAR_PART is read as CLEAR_PART (R180). -/
theorem kindOf_clearPart {b : Byte} (found : kindOf b = some .clearPart) : b = Kind.clearPart.byte := by
  have named := List.find?_some found
  exact (beq_iff_eq.1 named).symm

theorem checkedOwner_clearPart (p : PortId) (pl : List Byte) :
    checkedOwner p pl .clearPart = clearPartOwner ∨ checkedOwner p pl .clearPart = refusedBy .range := by
  unfold checkedOwner
  split
  · exact .inl rfl
  · exact .inr rfl

/-- A request frame taken on both, the alarms in one state if it is a CLEAR_PART of the Fleet port. -/
theorem Framed.takeRequest {same : Prop} {s u : State} (h : Framed same s u) {p : PortId} {kind : Byte}
    (alarms : p = .fleet → kind = Kind.clearPart.byte → same) (tag : Byte) (pl : List Byte) :
    (takeRequest p kind tag pl u).covert = (takeRequest p kind tag pl s).covert := by
  unfold Machine.takeRequest
  split
  · exact (admitNull_blind p tag).alike h.covert
  · rename_i k _ found
    by_cases clears : k = .clearPart
    · subst clears
      exact h.clearPart (fun fleet => alarms fleet (kindOf_clearPart found)) kind tag (checkedOwner_clearPart p pl)
    · exact h.request (checkedOwner_unaware p pl k clears) kind tag
  · exact h.admitted (fun offered => absurd offered Bool.false_ne_true) fun _ offered => absurd offered Bool.false_ne_true

/-- What a request of the Fleet port leaves of what the console sees is what its owner leaves (R174). -/
theorem admitRequest_consoleView {s : State} {owner : Owner} (work : (owner s).1.consoleView = s.consoleView) (kind tag : Byte)
    (offered : Bool) : (admitRequest .fleet kind tag offered owner s).consoleView = s.consoleView := by
  have onFleet : ∀ (t : State) (x : Port), (t.putPort .fleet x).consoleView = t.consoleView := fun _ _ => rfl
  exact admit_rel (R := fun s t => t.consoleView = s.consoleView) rfl (fun t x seen => (onFleet t x).trans seen) work

/-- The console sees nothing of a CLEAR_PART of the Fleet port. -/
theorem takeRequest_consoleView (tag : Byte) (pl : List Byte) (s : State) :
    (takeRequest .fleet Kind.clearPart.byte tag pl s).consoleView = s.consoleView := by
  refine admitRequest_consoleView (owner := checkedOwner .fleet pl .clearPart) ?_ _ _ _
  rcases checkedOwner_clearPart .fleet pl with clears | refused
  · rw [clears]
    exact clearPartOwner_consoleView s
  · rw [refused]
    rfl

/-! ### Transfers -/

/-- Bytes clocked in on both, the alarms in one state if they are of a CLEAR_PART of the Fleet port. -/
theorem Framed.received {same : Prop} {s u : State} (h : Framed same s u) {p : PortId} {kind : Byte} {bs : List Byte}
    (thaw : s.power ≠ .frozen) (first : ∀ x, (s.port p).receive = some x → byteAt (x ++ bs) 0 = kind)
    (alarms : p = .fleet → kind = Kind.clearPart.byte → same) :
    (receiveBytes p bs u).covert = (receiveBytes p bs s).covert :=
  Framed.bytes p kind (fun t v => v.covert = t.covert) (fun _ _ framed => framed.covert)
    (fun _ _ tag pl framed => framed.takeRequest alarms tag pl) bs s u h thaw first

/-- The console sees the same after bytes of a CLEAR_PART of the Fleet port, whatever the alarms. -/
theorem Framed.received_consoleView {same : Prop} {s u : State} (h : Framed same s u) {bs : List Byte} (thaw : s.power ≠ .frozen)
    (first : ∀ x, (s.port .fleet).receive = some x → byteAt (x ++ bs) 0 = Kind.clearPart.byte) :
    (receiveBytes .fleet bs u).consoleView = (receiveBytes .fleet bs s).consoleView := by
  refine Framed.bytes .fleet Kind.clearPart.byte (fun t v => v.consoleView = t.consoleView)
    (fun _ _ framed => consoleView_of_covert framed.covert) (fun a b tag pl framed => ?_) bs s u h thaw first
  rw [takeRequest_consoleView, takeRequest_consoleView]
  exact consoleView_of_covert framed.covert


/-- What one port makes of itself. -/
theorem onPort_blind (p : PortId) (f : Port → Port) : Blind fun s => s.putPort p (f (s.port p)) := by cases p <;> exact fun _ => rfl

/-- A port after a READ that clocks out n bytes (R174, R177). -/
def Port.afterRead (x : Port) (n : Nat) : Port :=
  match x.nextFrame with
  | none => { x with wire := emptyFrame.bytes.take n }
  | some f =>
    let y := { x with wire := f.bytes.take n }
    if f.bytes.length ≤ n then y.markRead f else y

theorem readTransfer_eq (s : State) (p : PortId) (n : Nat) : s.readTransfer p n = s.putPort p ((s.port p).afterRead n) := by
  unfold State.readTransfer Port.afterRead State.shiftOut
  cases (s.port p).nextFrame with
  | none => rfl
  | some f =>
    dsimp only
    split
    · rw [port_putPort_same, putPort_putPort]
    · rfl

theorem readTransfer_blind (p : PortId) (n : Nat) : Blind fun s => s.readTransfer p n := by
  have read := onPort_blind p fun x => x.afterRead n
  intro s
  dsimp only
  rw [readTransfer_eq, readTransfer_eq]
  exact read s

theorem repeatTransfer_blind (p : PortId) (n : Nat) : Blind fun s => s.repeatTransfer p n :=
  onPort_blind p fun x => { x with wire := ((x.lastRead.getD emptyFrame).bytes).take n }

/-! ### Every command -/

/-- Whatever states two outcomes lead to stand in a relation. -/
def LeadTo (R : State → State → Prop) (o q : Host.Outcome State Fault Refusal) : Prop := ∀ t v, o = .next t → q = .next v → R t v

theorem LeadTo.next {R : State → State → Prop} {t v : State} (related : R t v) : LeadTo R (.next t) (.next v) := by
  intro t' v' first second
  injection first with first
  injection second with second
  rw [← first, ← second]
  exact related

/-- Whatever states two outcomes lead to have one covert form. -/
abbrev CovertTo : Host.Outcome State Fault Refusal → Host.Outcome State Fault Refusal → Prop := LeadTo fun t v => v.covert = t.covert

/-- The console sees the same of whatever states two outcomes lead to. -/
abbrev SeenTo : Host.Outcome State Fault Refusal → Host.Outcome State Fault Refusal → Prop :=
  LeadTo fun t v => v.consoleView = t.consoleView

namespace Framed

variable {same : Prop} {s u : State} (h : Framed same s u)
include h

theorem toRequest {p : PortId} {k : Kind} {owner : Owner} (tag : Byte) (unaware : Unaware p k owner) :
    CovertTo (Machine.request p k tag owner s) (Machine.request p k tag owner u) := .next (h.request unaware _ _)

/-- Work that the alarm cannot reach. -/
theorem toBlind {f : State → State} (blind : Blind f) : CovertTo (.next (f s)) (.next (f u)) := .next (blind.alike h.covert)

/-- An event of a running part. -/
theorem toEvent {f : State → State} (blind : Blind f) : CovertTo (.next (whenRunning f s)) (.next (whenRunning f u)) :=
  h.toBlind blind.whenRunning

/-- A tick in which an event falls that the alarm cannot reach (log entry 4). -/
theorem toTickWith {falls : State → Bool} (l : Lines) (blind : ∀ x, falls x.covert = falls x) :
    CovertTo (.next (tickWith falls l s)) (.next (tickWith falls l u)) := h.toBlind (.tickWith l blind)

/-- An event that falls or does not, whatever the alarm (log entry 4). -/
theorem toFalling {falls : State → Bool} {f : State → State} (blind : ∀ x, falls x.covert = falls x) (work : Blind f) :
    CovertTo (.next (if falls s then whenRunning f s else s)) (.next (if falls u then whenRunning f u else u)) :=
  h.toBlind (.choose (c := fun x => falls x = true) (fun x => by rw [blind]) work.whenRunning .id)

/-- A transfer on a port of a part that is not frozen. -/
theorem toTransfer {R : State → State → Prop} {f : State → State} (stands : R s u) (work : s.power ≠ .frozen → R (f s) (f u)) :
    LeadTo R (.next (unlessFrozen f s)) (.next (unlessFrozen f u)) := by
  refine .next ?_
  unfold unlessFrozen
  rw [h.power]
  split
  · exact stands
  · rename_i thaw
    exact work thaw

theorem toBlock {p : PortId} {k : Kind} {owner : Owner} (tag : Byte) (pl : List Byte) (unaware : Unaware p k owner) :
    CovertTo (requestBlock p k tag pl owner s) (requestBlock p k tag pl owner u) := by
  unfold requestBlock
  split
  · exact h.toRequest tag unaware
  · refine .next ?_
    rw [h.power]
    cases s.power with
    | frozen => exact h.covert
    | failing => exact (h.refuse p tag .frameCheck).covert
    | running => exact (h.refuse p tag .frameCheck).covert

/-- SET_CONFIG takes the seal line as it reads while its frame arrives (R60). -/
theorem toSetConfig (p : PortId) (tag : Byte) (x : SealedFields) : CovertTo (execSetConfig p tag x s) (execSetConfig p tag x u) :=
  h.toTransfer h.covert fun _ => (h.sampleSeal x.sealed).request (.ofFleet rfl rfl (.setConfig _)) _ _

/-- WRITE-START: the frame it begins is its own bytes (R174). -/
theorem toWriteStart (p : PortId) (x : SealedBytes) (alarms : ClearsPart s (.writeStart p x) → same) :
    CovertTo (execWriteStart p x s) (execWriteStart p x u) := by
  refine h.toTransfer h.covert fun thaw => ?_
  have begun := (h.sampleSeal x.sealed).setReceive p (some [])
  refine begun.received (kind := byteAt x.bytes 0) ?_ (fun y taken => ?_) fun fleet clears => alarms ⟨fleet, clears⟩
  · cases p <;> exact thaw
  · have empty : y = [] := by cases p <;> exact (Option.some.inj taken).symm
    rw [empty, List.nil_append]

/-- WRITE-CONTINUE: the frame it continues is what the port has taken, then its bytes (R174). -/
theorem toWriteContinue (p : PortId) (x : SealedBytes) (alarms : ClearsPart s (.writeContinue p x) → same) :
    CovertTo (execWriteContinue p x s) (execWriteContinue p x u) := by
  refine h.toTransfer h.covert fun thaw => ?_
  refine (h.sampleSeal x.sealed).received (kind := byteAt ((s.port p).receive.getD [] ++ x.bytes) 0) thaw (fun y taken => ?_)
    fun fleet clears => alarms ⟨fleet, clears⟩
  have held : (s.port p).receive = some y := taken
  rw [held, Option.getD_some]

/-- The console sees the same after a CLEAR_PART of the Fleet port, by its row or by its bytes, whatever the alarms. -/
theorem clears_seen {i : Instr} (clears : ClearsPart s i) : SeenTo (exec i s) (exec i u) := by
  have seen := consoleView_of_covert h.covert
  unfold ClearsPart at clears
  split at clears
  case h_1 p tag =>
    subst clears
    have owned : ∀ x : State, (admitRequest .fleet Kind.clearPart.byte tag (Kind.offered .clearPart .fleet) clearPartOwner x).consoleView
        = x.consoleView := fun x => admitRequest_consoleView (clearPartOwner_consoleView x) _ _ _
    exact .next ((owned u).trans (seen.trans (owned s).symm))
  case h_2 p x =>
    obtain ⟨rfl, first⟩ := clears
    refine h.toTransfer seen fun thaw => ?_
    refine ((h.sampleSeal x.sealed).setReceive .fleet (some [])).received_consoleView thaw fun y taken => ?_
    rw [show y = [] from (Option.some.inj taken).symm, List.nil_append]
    exact first
  case h_3 p x =>
    obtain ⟨rfl, first⟩ := clears
    refine h.toTransfer seen fun thaw => ?_
    refine (h.sampleSeal x.sealed).received_consoleView thaw fun y taken => ?_
    have held : (s.port .fleet).receive = some y := taken
    rwa [held, Option.getD_some] at first
  case h_4 => exact clears.elim

end Framed

/-- A start-up that finds its retention memory as the check word says (R188, R191). -/
theorem powerOn_blind (u : StartUp) : Blind fun s => s.startUp (s.intactAt u) u := fun s => Blind.startUp (s.intactAt u) u s

/-- Only a frozen part leaves a freeze (R190). -/
theorem Framed.toFreezeExit {same : Prop} {s u : State} (h : Framed same s u) (x : StartUp) :
    CovertTo (execFreezeExit x s) (execFreezeExit x u) := by
  unfold execFreezeExit
  rw [h.power]
  cases s.power with
  | frozen => exact h.toBlind (.startUp true x)
  | failing => exact .next h.covert
  | running => exact .next h.covert

/-- A verify event, after which Part clear may go on (R121, R122, R192). -/
theorem verified_blind {f : State → State} (verify : Blind f) :
    Blind fun s => if s.journal.inFlight.isSome then (f s).partClearOn else s :=
  .choose (c := fun s => s.journal.inFlight.isSome = true) (fun _ => Iff.rfl) (verify.comp .partClearOn) .id

/-- Every command but the two that fall with the alarm leaves two states apart in the alarm so, the alarms in one state if it is a
CLEAR_PART of the Fleet port (R172, R192). -/
theorem exec_covert {same : Prop} {s u : State} (h : Framed same s u) (i : Instr)
    (falls : ∀ l, i ≠ .alarmPress l ∧ i ≠ .flashPhase l) (alarms : ClearsPart s i → same) : CovertTo (exec i s) (exec i u) :=
  match i with
  | .openShift _ tag _ => h.toRequest tag (.of (.openShift _) (.openShift _))
  | .closeShift _ tag => h.toRequest tag (.of .closeShift .closeShift)
  | .setPooling _ tag _ => h.toRequest tag (.ofFleet rfl rfl (.setPooling _))
  | .readShift _ tag => h.toRequest tag (.of (.still fun _ => rfl) .readShift)
  | .latchCounters _ tag => h.toRequest tag (.of (.latchCounters _) (.latchCounters _))
  | .readCounter _ tag _ => h.toRequest tag ⟨.readCounter _ _, fun other _ => .readCounter _ _ other⟩
  | .book _ tag _ _ _ => h.toRequest tag (.ofFleet rfl rfl (.book _ _ _))
  | .cancelBooking _ tag _ => h.toRequest tag (.ofFleet rfl rfl (.cancelBooking _))
  | .startHire _ tag _ _ => h.toRequest tag (.of (.startHire _ _) (.startHire _ _))
  | .suspend _ tag _ => h.toRequest tag (.of (.suspend _) (.suspend _))
  | .resume _ tag _ => h.toRequest tag (.of (.resume _) (.resume _))
  | .stopHire _ tag _ => h.toRequest tag (.of (.stopHire _) (.stopHire _))
  | .addExtra _ tag _ _ => h.toRequest tag (.of (.addExtra _ _) (.addExtra _ _))
  | .removeExtra _ tag _ _ => h.toRequest tag (.of (.removeExtra _ _) (.removeExtra _ _))
  | .closeUnpaid _ tag _ => h.toRequest tag (.of (.closeUnpaid _) (.closeUnpaid _))
  | .readHire _ tag _ => h.toRequest tag (.of (.readHire _ _) (.readHire _ _))
  | .claim _ tag _ => h.toRequest tag (.of (.claim _ _) (.claim _ _))
  | .release _ tag _ => h.toRequest tag (.of (.release _ _) (.release _ _))
  | .beginPayment _ tag _ _ _ _ => h.toRequest tag (.of (.beginPayment _ _ _ _ _) (.beginPayment _ _ _ _ _))
  | .paymentResult _ tag _ => h.toRequest tag (.of (.paymentResult _ _) (.paymentResult _ _))
  | .reverse _ tag _ _ => h.toRequest tag (.of (.reverse _ _ _) (.reverse _ _ _))
  | .postCash _ tag _ _ _ => h.toRequest tag (.of (.postCash _ _ _) (.postCash _ _ _))
  | .load _ tag _ => h.toBlock tag _ (.ofFleet rfl rfl (.load _))
  | .compare _ tag _ => h.toBlock tag _ (.ofFleet rfl rfl (.compare _))
  | .activate _ tag => h.toRequest tag (.ofFleet rfl rfl .activate)
  | .readTariff _ tag _ _ _ => h.toRequest tag (.ofFleet rfl rfl (.readTariff _ _ _))
  | .setConfig _ _ _ => h.toSetConfig _ _ _
  | .setClock _ tag _ => h.toRequest tag (.ofFleet rfl rfl (.setClock _))
  | .setClockRead _ tag => h.toRequest tag (.ofFleet rfl rfl .setClockRead)
  | .readJournal _ tag _ => h.toRequest tag (.ofFleet rfl rfl (.readJournal _))
  | .ackJournal _ tag _ => h.toRequest tag (.ofFleet rfl rfl (.ackJournal _))
  | .readUnfiled _ tag => h.toRequest tag (.ofFleet rfl rfl .readUnfiled)
  | .ackUnfiled _ tag _ => h.toRequest tag (.ofFleet rfl rfl (.ackUnfiled _))
  | .signOverride _ tag _ => h.toRequest tag (.of (.signOverride _) (.signOverride _))
  | .signOverrideReport _ tag => h.toRequest tag (.of (.still fun _ => rfl) fun _ => rfl)
  | .signTestRun _ tag => h.toRequest tag (.ofFleet rfl rfl .signTestRun)
  | .signTestReport _ tag => h.toRequest tag (.ofFleet rfl rfl (.still fun _ => rfl))
  | .signClear _ tag => h.toRequest tag (.ofFleet rfl rfl .signClearRequest)
  | .setTalkMode _ tag _ => h.toRequest tag (.of (.setTalkMode _) (.setTalkMode _))
  | .setVolume _ tag _ _ => h.toRequest tag (.of (.setVolume _ _) (.setVolume _ _))
  | .readIntercom _ tag => h.toRequest tag (.of .readIntercom .readIntercom)
  | .intercomClear _ tag => h.toRequest tag (.of .intercomClear .intercomClear)
  | .postPrompt _ tag _ => h.toRequest tag (.of (.postPrompt _) (.postPrompt _))
  | .setMonitor _ tag _ => h.toRequest tag (.ofFleet rfl rfl (.setMonitor _))
  | .alarmStandDown _ tag => h.toRequest tag (.ofFleet rfl rfl .alarmStandDown)
  | .readAlarmLog _ tag => h.toRequest tag (.ofFleet rfl rfl .readAlarmLog)
  | .clearPart _ tag => .next (h.clearPart alarms _ tag (.inl rfl))
  | .setIndicators _ tag _ _ => h.toRequest tag (.ofFleet rfl rfl (.setIndicators _ _))
  | .readIndicators _ tag => h.toRequest tag (.of (.still fun _ => rfl) .readIndicators)
  | .ackNotices _ tag _ => h.toRequest tag ⟨.ackNotices _ _, fun other _ => .ackNotices _ _ other⟩
  | .setNoticeMask _ tag _ => h.toRequest tag (.of (.setNoticeMask _ _) (.setNoticeMask _ _))
  | .setStageMask _ tag _ => h.toRequest tag (.of (.setStageMask _ _) (.setStageMask _ _))
  | .null _ _ => h.toBlind (admitNull_blind _ _)
  | .writeStart _ _ => h.toWriteStart _ _ alarms
  | .writeContinue _ _ => h.toWriteContinue _ _ alarms
  | .readFrame _ _ => h.toTransfer h.covert fun _ => (readTransfer_blind _ _).alike h.covert
  | .repeatFrame _ _ => h.toTransfer h.covert fun _ => (repeatTransfer_blind _ _).alike h.covert
  | .wheelPulse => h.toEvent .wheelPulse
  | .totalMetres100m => h.toFalling (falls := State.hundredFalls) (fun _ => rfl) .wheelPulse
  | .tick l => h.toEvent (.tick l)
  | .fareTick l => h.toTickWith l fun _ => rfl
  | .ambientChange l => h.toTickWith l fun _ => rfl
  | .flashPhase l => absurd rfl (falls l).2
  | .signTestStep l => h.toTickWith l fun _ => rfl
  | .bookingExpired _ l => h.toTickWith l fun _ => rfl
  | .paymentExpired _ _ l => h.toTickWith l fun _ => rfl
  | .claimExpired _ l => h.toTickWith l fun _ => rfl
  | .configWriteComplete => h.toEvent .configWritten
  | .configWriteFail => h.toEvent .configWriteFailed
  | .activationDone => h.toEvent .activationDone
  | .activationFailed => h.toEvent .activationFailed
  | .totalizerWriteComplete => h.toEvent (.onTotalsWrite _)
  | .totalizerWriteFail => h.toEvent (.onTotalsWrite _)
  | .journalVerifyPass => h.toEvent (verified_blind .verifyPass)
  | .journalVerifyFail => h.toEvent (verified_blind .verifyFail)
  | .journalRecoveryStart => h.toEvent .recoveryStart
  | .journalRecoveryEnd _ => h.toEvent (.recoveryEnd _)
  | .partClearComplete l => h.toTickWith l fun _ => rfl
  | .alarmPress l => absurd rfl (falls l).1
  | .frontCodecFrame _ => h.toEvent (.frontFrame _)
  | .rearCodecFrame _ => h.toEvent (.rearFrame _)
  | .promptEnd _ => h.toFalling (falls := fun s => lastSample s.intercom.playing) (fun _ => rfl) (.rearFrame _)
  | .chimeEnd _ => h.toFalling (falls := fun s => lastSample s.intercom.chime) (fun _ => rfl) (.frontFrame _)
  | .rtcSecond => h.toBlind (f := State.secondOn) fun _ => rfl
  | .powerFailWarning => h.toBlind .warned
  | .freeze => h.toBlind .freeze
  | .freezeExit u => h.toFreezeExit u
  | .powerOn u => h.toBlind (powerOn_blind u)

/-- The console sees the same after every command but the two that fall with the alarm. -/
theorem exec_seen {same : Prop} {s u : State} (h : Framed same s u) (i : Instr)
    (falls : ∀ l, i ≠ .alarmPress l ∧ i ≠ .flashPhase l) : SeenTo (exec i s) (exec i u) := by
  by_cases clears : ClearsPart s i
  · exact h.clears_seen clears
  · exact fun t v first second => consoleView_of_covert
      (exec_covert h i falls (fun is => absurd is clears) t v first second)

/-! ### The statement -/

/-- A tick in which the named event falls is the tick, and one in which it does not is nothing (log entry 4). -/
theorem tickWith_falls {falls : State → Bool} {l : Lines} {s : State} :
    (falls s = true → (.next (tickWith falls l s) : Host.Outcome State Fault Refusal) = exec (.tick l) s)
    ∧ (falls s = false → (.next (tickWith falls l s) : Host.Outcome State Fault Refusal) = .next s) := by
  unfold tickWith
  refine ⟨fun is => ?_, fun isNot => ?_⟩
  · rw [if_pos is]
    rfl
  · rw [if_neg (by simp [isNot])]

/-- Settles O50: what the alarm may differ in reaches neither the work of any command beyond itself nor a reply of the console, save that
of CLEAR_PART, which changes nothing that the console sees. -/
theorem consoleLearnsNothingOfTheAlarm : Obligations.ConsoleLearnsNothingOfTheAlarm := by
  intro s u apart
  have same := (alarmApart_iff s u).1 apart
  obtain ⟨-, -, attentive⟩ := (consoleView_eq_iff s u).1 (consoleView_of_covert same)
  refine ⟨attentive, fun k pl offered => ?_, fun i t v falls receive outstanding first second => ?_, fun l => ?_⟩
  · have notClear : k ≠ .clearPart := by
      rintro rfl
      exact absurd offered (by decide)
    obtain ⟨work, reply⟩ := ownerOf_unaware .console pl k notClear
    exact ⟨(reply (by decide) offered).alike same, (consoleView_eq_iff _ _).1 (consoleView_of_covert (work.alike same))⟩
  · have framed : Framed (u.alarm.state = s.alarm.state) s u := ⟨same, receive, outstanding, fun alarms => alarms⟩
    obtain ⟨port, indicators, line⟩ := (consoleView_eq_iff t v).1 (exec_seen framed i falls t v first second)
    refine ⟨port, indicators, line, fun unclear => (alarmApart_iff t v).2 ?_⟩
    exact exec_covert framed i falls (fun clears => unclear.resolve_left (not_not_intro clears)) t v first second
  · obtain ⟨press, noPress⟩ := tickWith_falls (falls := fun s => s.alarm.pressTaken l.alarm) (l := l) (s := s)
    obtain ⟨phase, noPhase⟩ := tickWith_falls (falls := State.phaseEnds) (l := l) (s := s)
    exact ⟨press, phase, noPress, noPhase⟩

end Sys2Proof.Machine
end

section
/-! The tick at which an alarm press is taken (R166 to R168): the state that the press finds, what the press makes of it, and what of that
the rest of the tick leaves; with the statement on a further press. -/

namespace Sys2Proof.Machine

/-! ### The alarm line and the log -/

/-- The reading at which a press is taken clears the armed flag and ends the run at 50 (R166). -/
theorem readLine_taken {x : Alarm} (armed : x.armed = true) (run : x.pressRun = 49) :
    x.readLine true = { x with armed := false, pressRun := 50, releaseRun := 0 } := by
  simp [Alarm.readLine, Alarm.pressTaken, armed, run]

theorem pressTaken_of {x : Alarm} (armed : x.armed = true) (run : x.pressRun = 49) : x.pressTaken true = true := by
  simp [Alarm.pressTaken, armed, run]

/-- A change of the newest entry leaves the older ones. -/
theorem onNewest_append (f : AlarmEntry → AlarmEntry) (older : List AlarmEntry) (e : AlarmEntry) :
    onNewest f (older ++ [e]) = older ++ [f e] := by
  induction older with
  | nil => rfl
  | cons x rest ih =>
    have goesOn : onNewest f (x :: (rest ++ [e])) = x :: onNewest f (rest ++ [e]) := by cases rest <;> rfl
    rw [List.cons_append, goesOn, ih]
    rfl

/-- A kind pending joins a notice set without effect (R181). -/
theorem add_pending {x : Port} {k : NoticeKind} (pending : x.holds k = true) : x.add k = x := by
  have set : x.notices ||| k.mask = x.notices := by
    refine BitVec.eq_of_getLsbD_eq fun i within => ?_
    rw [BitVec.getLsbD_or]
    by_cases own : i = k.bit
    · rw [own, show x.notices.getLsbD k.bit = true from pending, Bool.true_or]
    · have other : k.mask.getLsbD i = false := by
        rw [NoticeKind.mask, BitVec.getLsbD_ofNat, Nat.testBit_two_pow]
        simp [Ne.symm own]
      rw [other, Bool.or_false]
  unfold Port.add
  rw [set]

/-! ### The state a press finds -/

/-- The tick up to the Alarm Unit's work. -/
def untilAlarm (l : Lines) (s : State) : State :=
  (State.signTick { s with pins := l, timeBase := s.nextCount } s.fareNext).intercomTick

/-- Sign and intercom have had their turn, and may have told the ports; all else stands, the lines read. -/
theorem untilAlarm_out (l : Lines) (s : State) : untilAlarm l s = { s with
    pins := l, timeBase := s.nextCount, sign := (untilAlarm l s).sign, ports := (untilAlarm l s).ports
    intercom := (s.intercom.talkRead l.talk s.tariffs.config.depth).callRead l.call s.tariffs.config.depth } := by
  obtain ⟨signOnly, -⟩ := signTick_out { s with pins := l, timeBase := s.nextCount } s.fareNext
  obtain ⟨a, ha⟩ : ∃ a : State, a = State.signTick { s with pins := l, timeBase := s.nextCount } s.fareNext := ⟨_, rfl⟩
  obtain ⟨talkOnly, -⟩ := intercomTick_out a
  have unit : untilAlarm l s = a.intercomTick := by rw [ha]; rfl
  rw [← ha] at signOnly
  rw [unit, talkOnly, signOnly]

theorem untilAlarm_sign (l : Lines) (s : State) :
    (untilAlarm l s).sign = (State.signTick { s with pins := l, timeBase := s.nextCount } s.fareNext).sign := by
  obtain ⟨-, sign, -⟩ := intercomTick_out (State.signTick { s with pins := l, timeBase := s.nextCount } s.fareNext)
  exact sign

/-- The state a press finds, the line read. -/
def pressFinds (l : Lines) (s : State) : State :=
  { untilAlarm l s with alarm := { s.alarm with armed := false, pressRun := 50, releaseRun := 0 } }

/-- A press taken acts on the state it finds (R166). -/
theorem preTick_pressed {l : Lines} {s : State} (pressed : l.alarm = true) (armed : s.alarm.armed = true) (run : s.alarm.pressRun = 49) :
    preTick l s = (pressFinds l s).alarmPress := by
  have fields : (untilAlarm l s).alarm = s.alarm ∧ (untilAlarm l s).pins = l := by
    rw [untilAlarm_out]
    exact ⟨rfl, rfl⟩
  obtain ⟨alarm, pins⟩ := fields
  have taken : (untilAlarm l s).alarm.pressTaken (untilAlarm l s).pins.alarm = true := by
    rw [alarm, pins, pressed]
    exact pressTaken_of armed run
  have line : (untilAlarm l s).alarm.readLine (untilAlarm l s).pins.alarm
      = { s.alarm with armed := false, pressRun := 50, releaseRun := 0 } := by
    rw [alarm, pins, pressed]
    exact readLine_taken armed run
  unfold pressFinds
  rw [← line]
  exact if_pos taken

/-- The row of a press is the whole tick at which it is taken (log entry 4). -/
theorem exec_pressed {l : Lines} {s : State} (running : s.power = .running) (pressed : l.alarm = true) (armed : s.alarm.armed = true)
    (run : s.alarm.pressRun = 49) : exec (.alarmPress l) s = .next (s.tick l) := by
  refine congrArg _ (mk_tickWith (f := fun s => s.alarm.pressTaken l.alarm) running ?_)
  rw [pressed]
  exact pressTaken_of armed run

/-! ### The flash -/

/-- A flash a tick on (R139). -/
def Flash.ticked (f : Flash) : Flash := if f.left ≤ 1 then ⟨!f.on, 50⟩ else ⟨f.on, f.left - 1⟩

theorem flashTick_flash (x : Sign) (full : Nat) : (x.flashTick full).flash = x.flash.map Flash.ticked := by
  unfold Sign.flashTick
  cases flash : x.flash with
  | none => exact flash
  | some f =>
    by_cases ends : f.left ≤ 1
    · simp [Flash.ends, Flash.ticked, ends, alarmLevel_flash]
    · simp [Flash.ends, Flash.ticked, ends]

theorem endTest_flash (x : Sign) (full : Nat) : (x.endTest full).flash = x.flash :=
  (aim_alarm _ _ _).2.trans (alarmLevel_flash _ _)

theorem testTick_flash (s : State) : s.testTick.sign.flash = s.sign.flash := by
  unfold State.testTick
  split
  · rfl
  · split
    · split
      · rfl
      · exact endTest_flash _ _
    · rfl

/-- The sign's own tick takes the flash a tick on, whatever else it does (R139). -/
theorem signTick_flash (s : State) (fare : Bool) : (s.signTick fare).sign.flash = s.sign.flash.map Flash.ticked := by
  have flashed : s.flashed.sign.flash = s.sign.flash.map Flash.ticked := by
    rw [← rampTick_flash s, ← readAmbient_flash s.rampTick s.pins.night]
    exact flashTick_flash _ _
  have tested := (testTick_flash s.flashed).trans flashed
  rw [signTick_eq]
  split
  · obtain ⟨-, checked⟩ := checkLamps_out s.flashed.testTick s.flashed.testTick.pins.sense
    rw [checked]
    exact tested
  · exact tested

theorem untilAlarm_flash (l : Lines) (s : State) : (untilAlarm l s).sign.flash = s.sign.flash.map Flash.ticked := by
  rw [untilAlarm_sign]
  exact signTick_flash _ _

theorem fareWork_flash (s : State) : s.fareWork.sign.flash = s.sign.flash := by
  have lasting : Lasting fun x _ => x.flash = s.sign.flash := ⟨fun _ _ _ h => h, fun x full t h => (aim_alarm x t full).2.trans h⟩
  exact lasting.filed.fareWork (s := s) rfl

theorem ticked_flash (l : Lines) (s : State) : (ticked l s).sign.flash = (preTick l s).sign.flash := by
  unfold ticked
  split
  · exact fareWork_flash _
  · rfl

/-! ### A further press -/

/-- Neither line that the intercom reads moves its monitor (R156, R159, R162). -/
theorem linesRead_monitor (x : Intercom) (talk call : Bool) (depth : Nat) :
    ((x.talkRead talk depth).callRead call depth).monitor = x.monitor
      ∧ ((x.talkRead talk depth).callRead call depth).monitorOut = x.monitorOut := by
  rw [callRead_out, talkRead_out]
  exact ⟨rfl, rfl⟩

theorem tick_monitor {l : Lines} {s : State} (idle : s.partClear = .idle) :
    (s.tick l).intercom.monitor = s.intercom.monitor ∧ (s.tick l).intercom.monitorOut = s.intercom.monitorOut := by
  obtain ⟨-, -, -, -, -, -, -, -, -, -, intercom, -⟩ := kept_of_beyondFiling (ticked_beyondFiling l s)
  rw [tick_idle l idle, intercom, (preTick_out l s).intercom]
  exact linesRead_monitor _ _ _ _

/-- A press taken while the alarm is ACTIVE (R168). -/
theorem preTick_pressedAgain {l : Lines} {s : State} (pressed : l.alarm = true) (armed : s.alarm.armed = true)
    (run : s.alarm.pressRun = 49) (active : s.alarm.state = .active) : preTick l s = (pressFinds l s).pressAgain := by
  have found : (pressFinds l s).alarm.state = .active := active
  rw [preTick_pressed pressed armed run, State.alarmPress, found]

/-- Settles O49: the press counts in the newest entry and tells the Fleet port, and the rest of the tick takes nothing of that back. -/
theorem pressAgainCountsInTheNewestEntry : Obligations.PressAgainCountsInTheNewestEntry := by
  intro l s older e running idle pressed armed run active log
  have press := preTick_pressedAgain pressed armed run active
  obtain ⟨-, -, -, -, -, -, -, -, -, -, alarm⟩ := tick_kept l s
  obtain ⟨monitor, monitorOut⟩ := tick_monitor (l := l) idle
  refine ⟨s.tick l, exec_pressed running pressed armed run, ?_, ?_, ?_, fun x pending => add_pending pending, ?_, monitorOut, monitor⟩
  · rw [alarm, press]
    exact active
  · rw [alarm, press]
    show onNewest _ s.alarm.log = _
    rw [log]
    exact onNewest_append _ older e
  · rw [tick_idle l idle]
    refine ticked_told l s .fleet .alarm ?_
    rw [press]
    exact add_self _ _
  · have flash : (s.tick l).sign.flash = s.sign.flash.map Flash.ticked := by
      rw [tick_idle l idle, ticked_flash, press]
      exact untilAlarm_flash l s
    rw [flash]
    cases s.sign.flash with
    | none => rfl
    | some f => exact apply_ite some _ _ _

end Sys2Proof.Machine
end

section
/-! An alarm activated, stood down and read (R166, R167, R169, R170), with the statement. -/

namespace Sys2Proof.Machine

/-! ### The flash and the ALARM lamp alone -/

/-- The sign is as it was but for the flash and the ALARM lamp. -/
def AlarmSideOnly (x y : Sign) : Prop := y = { x with flash := y.flash, lamps := { x.lamps with alarm := y.lamps.alarm } }

theorem AlarmSideOnly.front {x y : Sign} (h : AlarmSideOnly x y) {i : LampId} (front : i ≠ .alarm) : y.lamps.get i = x.lamps.get i := by
  rw [h]
  cases i with
  | alarm => exact absurd rfl front
  | _ => rfl

theorem AlarmSideOnly.target {x y : Sign} (h : AlarmSideOnly x y) : y.target = x.target := by rw [h]

theorem AlarmSideOnly.trans {x y z : Sign} (h : AlarmSideOnly x y) (g : AlarmSideOnly y z) : AlarmSideOnly x z := by
  unfold AlarmSideOnly at *
  rw [g, h]

theorem withFlash_alarmSide (x : Sign) (f : Option Flash) : AlarmSideOnly x { x with flash := f } := rfl

theorem alarmLevel_alarmSide (x : Sign) (level : Nat) : AlarmSideOnly x (x.alarmLevel level) := by
  unfold Sign.alarmLevel
  split <;> rfl

theorem flashOn_alarmSide (x : Sign) (full : Nat) : AlarmSideOnly x (x.flashOn full) :=
  (withFlash_alarmSide x _).trans (alarmLevel_alarmSide _ _)

theorem flashOff_alarmSide (x : Sign) : AlarmSideOnly x x.flashOff := (withFlash_alarmSide x none).trans (alarmLevel_alarmSide _ _)

theorem flashTick_alarmSide (x : Sign) (full : Nat) : AlarmSideOnly x (x.flashTick full) := by
  unfold Sign.flashTick
  split
  · rfl
  · split
    · exact (withFlash_alarmSide x _).trans (alarmLevel_alarmSide _ _)
    · exact withFlash_alarmSide x _

/-- Outside its own step of a sign test the ALARM lamp takes the level it is set to (R139, R143). -/
theorem alarmLevel_set {x : Sign} (untested : ∀ t, x.test = some t → t.lamp ≠ .alarm) (level : Nat) :
    (x.alarmLevel level).lamps.alarm.level = level := by
  unfold Sign.alarmLevel
  split
  · rename_i own
    exact absurd rfl (untested _ own)
  · rfl

/-! ### The state a first press finds -/

theorem readAmbient_target (s : State) (night : Bool) : (s.readAmbient night).sign.target = s.sign.target := by
  have moved : ∀ x : State, x.fullLevelChanged.sign.target = x.sign.target := by
    intro x
    have aimed := aim_target x.sign x.sign.target x.fullLevel
    unfold State.fullLevelChanged
    dsimp only
    split
    · exact (alarmLevel_alarmSide _ _).target.trans aimed
    · exact aimed
  unfold State.readAmbient
  split
  · rfl
  · split
    · exact moved _
    · rfl

/-- A reading of the ambient line at which the value does not turn leaves the lamps (R136). -/
theorem readAmbient_lamps {s : State} {night : Bool} (stands : ambientTurns s.sign night = false) :
    (s.readAmbient night).sign.lamps = s.sign.lamps := by
  unfold State.readAmbient
  rw [stands]
  split <;> rfl

theorem readAmbient_ports (s : State) (night : Bool) : (s.readAmbient night).ports = s.ports := by
  unfold State.readAmbient
  split
  · rfl
  · split
    · rw [(fullLevelChanged_out _).1]
    · rfl

theorem flashed_alarmSide (s : State) : AlarmSideOnly (s.rampTick.readAmbient s.pins.night).sign s.flashed.sign := flashTick_alarmSide _ _

theorem flashed_target (s : State) : s.flashed.sign.target = s.sign.target := by
  rw [(flashed_alarmSide s).target, readAmbient_target, rampTick_eq]

theorem flashed_ports (s : State) : s.flashed.ports = s.ports := by
  have ramped : s.rampTick.ports = s.ports := by rw [rampTick_eq]
  exact (readAmbient_ports s.rampTick s.pins.night).trans ramped

theorem rampTick_goal (s : State) (i : LampId) : (s.rampTick.sign.lamps.get i).goal = (s.sign.lamps.get i).goal := by
  obtain ⟨goal, -⟩ := rampStep_kept s.sign.lamps i
  rw [rampTick_eq]
  dsimp only
  split
  · exact goal
  · rfl

/-- While the ambient value does not turn, no front lamp's goal moves (R134, R136). -/
theorem flashed_goal {s : State} (stands : ambientTurns s.sign s.pins.night = false) {i : LampId} (front : i ≠ .alarm) :
    (s.flashed.sign.lamps.get i).goal = (s.sign.lamps.get i).goal := by
  have ramped : ambientTurns s.rampTick.sign s.pins.night = false := by
    rw [rampTick_eq]
    exact stands
  rw [(flashed_alarmSide s).front front, readAmbient_lamps ramped, rampTick_goal]

/-- Off a fare tick and with no test, the sign's tick is its ramp, its ambient reading and its flash. -/
theorem signTick_idle {s : State} (idle : s.sign.test = none) : s.signTick false = s.flashed := by
  have untested : s.flashed.sign.test = none := (flashed_test s).trans idle
  have skipped : s.flashed.testTick = s.flashed := by
    unfold State.testTick
    rw [untested]
  exact skipped

/-- The readings of the lines tell the Console port alone (R159). -/
theorem intercomTick_port (s : State) {p : PortId} (other : p ≠ .console) : s.intercomTick.port p = s.port p := by
  unfold State.intercomTick
  rw [readTalk_eq, readCall_eq]
  dsimp only
  split
  · exact ports_get_put_other _ _ other
  · rfl

/-- What a press finds off a fare tick, no test running: the sign flashed, and nothing told but a call press to the Console port. -/
theorem pressFinds_idle {l : Lines} {s : State} (noFare : s.fareNext = false) (untested : s.sign.test = none) :
    (pressFinds l s).sign = (State.flashed { s with pins := l, timeBase := s.nextCount }).sign
      ∧ ∀ p, p ≠ .console → (pressFinds l s).port p = s.port p := by
  have signed : State.signTick { s with pins := l, timeBase := s.nextCount } s.fareNext
      = State.flashed { s with pins := l, timeBase := s.nextCount } := by
    rw [noFare]
    exact signTick_idle untested
  refine ⟨(untilAlarm_sign l s).trans (congrArg State.sign signed), fun p other => ?_⟩
  have told := flashed_ports { s with pins := l, timeBase := s.nextCount }
  have port := intercomTick_port (State.signTick { s with pins := l, timeBase := s.nextCount } s.fareNext) other
  rw [signed] at port
  refine Eq.trans ?_ (port.trans (congrArg (fun q => Ports.get q p) told))
  rw [← signed]
  rfl

/-- A press taken while the alarm is QUIET (R167). -/
theorem preTick_pressedFirst {l : Lines} {s : State} (pressed : l.alarm = true) (armed : s.alarm.armed = true)
    (run : s.alarm.pressRun = 49) (quiet : s.alarm.state = .quiet) : preTick l s = (pressFinds l s).activate := by
  have found : (pressFinds l s).alarm.state = .quiet := quiet
  rw [preTick_pressed pressed armed run, State.alarmPress, found]

/-- The entry of an activation shows the clock and the stages of the tick (R167). -/
theorem pressFinds_entry (l : Lines) (s : State) :
    (pressFinds l s).alarmEntry = ⟨s.clock, none, 1, (s.hire .a).stage, (s.hire .b).stage, (s.hire .c).stage⟩ := by
  unfold pressFinds
  rw [untilAlarm_out]
  rfl

/-- An activation's sign: the flash begun over the sign found, the ALARM lamp at the full level (R139, R167). -/
theorem activate_sign {s : State} (idle : s.sign.test = none) : AlarmSideOnly s.sign s.activate.sign
    ∧ s.activate.sign.flash = some ⟨true, 50⟩ ∧ s.activate.sign.lamps.alarm.level = s.activate.fullLevel := by
  have only := flashOn_alarmSide s.sign s.fullLevel
  have level : s.activate.fullLevel = s.fullLevel := fullLevel_kept (flashOn_held s.sign s.fullLevel).night rfl
  refine ⟨only, alarmLevel_flash _ _, ?_⟩
  rw [level]
  exact alarmLevel_set (x := { s.sign with flash := some ⟨true, 50⟩ }) (fun t test => absurd (idle.symm.trans test) (by simp)) _

/-- Off a fare tick the tick of a first press ends with the activation. -/
theorem tick_pressedFirst {l : Lines} {s : State} (idle : s.partClear = .idle) (noFare : s.fareNext = false) (pressed : l.alarm = true)
    (armed : s.alarm.armed = true) (run : s.alarm.pressRun = 49) (quiet : s.alarm.state = .quiet) :
    s.tick l = (pressFinds l s).activate := by
  rw [tick_idle l idle, ticked_noFare l noFare, preTick_pressedFirst pressed armed run quiet]

/-- Off a fare tick and with no call press taken, a tick tells the Console port nothing (R156, R159, R172). -/
theorem tick_console {l : Lines} {s : State} (idle : s.partClear = .idle) (noFare : s.fareNext = false)
    (uncalled : s.intercom.mode ≠ .privateTalk ∨ s.intercom.callPressed l.call = false) :
    (s.tick l).port .console = s.port .console := by
  rw [tick_idle l idle, ticked_noFare l noFare]
  refine (preTick_out l s).console (fun called => ?_) noFare
  obtain ⟨mode, call⟩ := called
  rcases uncalled with other | released
  · exact other mode
  · exact absurd (released.symm.trans call) Bool.false_ne_true

/-! ### Stand-down -/

/-- ALARM_STAND_DOWN of an ACTIVE alarm closes its entry and replies its time and count (R169). -/
theorem alarmStandDownOwner_active {s : State} {older : List AlarmEntry} {e : AlarmEntry} (active : s.alarm.state = .active)
    (log : s.alarm.log = older ++ [e]) :
    alarmStandDownOwner s = (s.standDown, .of .ok (e.activated.bytes ++ [BitVec.ofNat 8 e.presses]))
      ∧ s.standDown.alarm = { s.alarm with state := .quiet, log := older ++ [{ e with stoodDown := some s.clock }] } := by
  unfold alarmStandDownOwner State.standDown
  rw [active, log, onNewest_append]
  have newest : closedEntryBytes (older ++ [e]) = e.activated.bytes ++ [BitVec.ofNat 8 e.presses] := by
    simp [closedEntryBytes, be1]
  rw [← newest]
  exact ⟨rfl, rfl⟩

theorem alarmStandDownOwner_quiet {s : State} (quiet : s.alarm.state = .quiet) : alarmStandDownOwner s = (s, .of .ok []) := by
  unfold alarmStandDownOwner
  rw [quiet]
  rfl

/-! ### The statement -/

/-- Settles O48: a first press by the tick in which it falls, the two requests by their owners. -/
theorem theAlarmIsRaisedAndStoodDown : Obligations.TheAlarmIsRaisedAndStoodDown := by
  refine ⟨fun l s running idle untested noFare pressed armed run quiet => ?_,
    fun tag s ready => ⟨fun older e active log => ?_, fun quiet => ?_, ?_⟩⟩
  · obtain ⟨sign, ports⟩ := pressFinds_idle (l := l) noFare untested
    have foundIdle : (pressFinds l s).sign.test = none := by
      rw [sign, flashed_test]
      exact untested
    obtain ⟨only, flash, level⟩ := activate_sign foundIdle
    obtain ⟨monitor, -⟩ := tick_monitor (l := l) idle
    have console := tick_console (l := l) idle noFare
    refine ⟨_, exec_pressed running pressed armed run, ?_⟩
    rw [tick_pressedFirst idle noFare pressed armed run quiet] at monitor console ⊢
    refine ⟨rfl, rfl, rfl, ?_, flash, level, congrArg (fun x => Port.add x .alarm) (ports .fleet (by decide)),
      ports .payment (by decide), console, fun stands i front => ?_, ?_, monitor⟩
    · rw [← pressFinds_entry l s]
      rfl
    · rw [only.front front, sign]
      exact flashed_goal stands front
    · rw [only.target, sign]
      exact flashed_target _
  · obtain ⟨closes, alarm⟩ := alarmStandDownOwner_active active log
    have only := flashOff_alarmSide s.sign
    exact ⟨_, s.standDown, request_answers ready rfl closes, rfl, rfl, alarm, alarmLevel_flash _ _,
      fun untested => alarmLevel_set (x := { s.sign with flash := none }) untested 0, fun i front => only.front front⟩
  · exact request_answers ready rfl (alarmStandDownOwner_quiet quiet)
  · exact request_answers ready rfl rfl

end Sys2Proof.Machine
end

section
/-! Requests refused: that a request its owner refuses leaves the part as it was (R179), with the statement. -/

namespace Sys2Proof.Machine

/-! ### A reply and the state that comes with it -/

/-- The codes of a request that is carried out; any other code refuses it (R179). -/
def Code.carriesOut : Code → Bool
  | .ok | .accepted | .late | .skipped => true
  | _ => false

/-- The first byte of a reply is a code of a request that is carried out. -/
def Reply.carriesOut (r : Reply) : Prop :=
  ∃ c : Code, c.carriesOut = true ∧ ∃ items rest, r.payloads = (c.byte :: items) :: rest

/-- A request on a state is carried out, by what its reply says, or leaves that state as it was. -/
def AllOrNothing (s : State) (a : State × Reply) : Prop := a.1 = s ∨ a.2.carriesOut

/-- A reply whose code carries nothing out comes with the state as it was. -/
theorem AllOrNothing.stands_of_code {s : State} {a : State × Reply} (h : AllOrNothing s a) {code : Byte} {items : List Byte}
    {rest : List (List Byte)} (replies : a.2.payloads = (code :: items) :: rest)
    (refuses : ∀ c : Code, c.carriesOut = true → code ≠ c.byte) : a.1 = s := by
  rcases h with stands | ⟨c, carries, items', rest', same⟩
  · exact stands
  · rw [replies] at same
    injection same with first
    injection first with codes
    exact absurd codes (refuses c carries)

namespace AllOrNothing

variable {s : State}

/-- A reply that comes with the state as it was, whatever it says. -/
theorem stands (s : State) (r : Reply) : AllOrNothing s (s, r) := .inl rfl

/-- Work of any kind, answered with a code that says so. -/
theorem carriedOut (s t : State) {c : Code} (carries : c.carriesOut = true) (items : List Byte) : AllOrNothing s (t, .of c items) :=
  .inr ⟨c, carries, items, [], rfl⟩

theorem done (s t : State) (items : List Byte) : AllOrNothing s (done t items) := carriedOut s t rfl items

/-- A check that fails changes nothing; past the checks the work decides. -/
theorem checked {checks : List (Bool × Code)} {work : Owner} (h : AllOrNothing s (work s)) : AllOrNothing s (checked checks work s) := by
  unfold Machine.checked
  split
  · exact stands s _
  · exact h

/-- A slot that does not exist changes nothing; for one that does the work decides. -/
theorem withSlot {b : Byte} {work : SlotId → Owner} (h : ∀ sl, AllOrNothing s (work sl s)) : AllOrNothing s (withSlot b work s) := by
  unfold Machine.withSlot
  cases slotOf b with
  | none => exact stands s _
  | some sl => exact h sl

/-! ### Hires -/

theorem startHire (slot choice : Byte) (s : State) : AllOrNothing s (startHireOwner slot choice s) := by
  refine withSlot fun sl => checked ?_
  split
  · exact stands s _
  · exact checked (done ..)

theorem stopHire (slot : Byte) (s : State) : AllOrNothing s (stopHireOwner slot s) := by
  refine withSlot fun sl => ?_
  dsimp only
  split
  · exact done ..
  · exact done ..
  · exact done ..
  · exact checked (done ..)
  · exact done ..
  · exact stands s _
  · exact stands s _

theorem addExtra (slot extra : Byte) (s : State) : AllOrNothing s (addExtraOwner slot extra s) := by
  refine withSlot fun sl => checked ?_
  split
  · exact stands s _
  · exact checked (done ..)

/-! ### Claims and payments -/

theorem claim (p : PortId) (slot : Byte) (s : State) : AllOrNothing s (claimOwner p slot s) := by
  refine withSlot fun sl => checked ?_
  split
  · exact done ..
  · exact checked (done ..)

theorem reverse (p : PortId) (slot entry : Byte) (s : State) : AllOrNothing s (reverseOwner p slot entry s) := by
  refine withSlot fun sl => checked ?_
  split
  · exact stands s _
  · exact checked (done ..)

/-- A result for a PENDING entry: refused, or written into the entry, an OFFLINE approval only within the ceiling (R83, R84). -/
theorem pendingResult (p : PortId) (sl : SlotId) (f : ResultFields) (approved : Bool) (route : Route) (e : Payment) (s : State) :
    AllOrNothing s (pendingResult p sl f approved route e s) := by
  unfold Machine.pendingResult
  split
  · exact stands s _
  · split
    · exact stands s _
    · split
      · exact done ..
      · cases route with
        | online => exact done ..
        | offline =>
          dsimp only
          split
          · exact done ..
          · exact stands s _

/-- A result for an EXPIRED entry: refused, or LATE (R86). -/
theorem expiredResult (p : PortId) (sl : SlotId) (f : ResultFields) (approved : Bool) (e : Payment) (s : State) :
    AllOrNothing s (expiredResult p sl f approved e s) := by
  unfold Machine.expiredResult
  split
  · exact stands s _
  · exact carriedOut s _ rfl []

theorem presentResult (p : PortId) (sl : SlotId) (f : ResultFields) (approved : Bool) (route : Route) (s : State) :
    AllOrNothing s (presentResult p sl f approved route s) := by
  unfold Machine.presentResult
  dsimp only
  split
  · exact stands s _
  · split
    · exact stands s _
    · split
      · exact stands s _
      · split
        · exact pendingResult ..
        · exact expiredResult ..
        · exact stands s _

/-- A result for a hire that has left its slot: RANGE for a method that is none, else LATE (R87). -/
theorem goneResult (sl : SlotId) (f : ResultFields) (approved : Bool) (s : State) : AllOrNothing s (goneResult sl f approved s) := by
  unfold Machine.goneResult
  split
  · exact stands s _
  · split
    · exact carriedOut s _ rfl []
    · exact stands s _

theorem paymentResult (p : PortId) (f : ResultFields) (s : State) : AllOrNothing s (paymentResultOwner p f s) := by
  unfold paymentResultOwner
  split
  · split
    · exact stands s _
    · split
      · exact presentResult ..
      · exact goneResult ..
  · exact stands s _

/-! ### Shift, tariffs and journal -/

theorem closeShift (s : State) : AllOrNothing s (closeShiftOwner s) := by
  unfold closeShiftOwner
  split <;> exact done ..

theorem setPooling (pooling : Byte) (s : State) : AllOrNothing s (setPoolingOwner pooling s) := by
  unfold setPoolingOwner
  split
  · exact stands s _
  · exact checked (done ..)

/-- READ_COUNTER keeps the state, whether it is refused or not (R114). -/
theorem readCounter (p : PortId) (index : Byte) (s : State) : AllOrNothing s (readCounterOwner p index s) := by
  unfold readCounterOwner
  split
  · exact stands s _
  · split <;> exact stands s _

theorem readTariff (set item place : Byte) (s : State) : AllOrNothing s (readTariffOwner set item place s) := by
  unfold readTariffOwner
  split
  · exact stands s _
  · split <;> exact stands s _

/-- SET_CLOCK refuses with the clock as it stands, or sets it (R187). -/
theorem setClock (f : ClockFields) (s : State) : AllOrNothing s (setClockOwner f s) := by
  unfold setClockOwner
  split
  · exact stands s _
  · exact carriedOut s _ rfl _

theorem setClockPayload (pl : List Byte) (s : State) : AllOrNothing s (setClockPayload pl s) := by
  unfold Machine.setClockPayload
  split
  · exact stands s _
  · exact setClock _ s

theorem ackJournal (seq : Word) (s : State) : AllOrNothing s (ackJournalOwner seq s) := by
  refine checked ?_
  dsimp only
  split <;> exact done ..

theorem readUnfiled (s : State) : AllOrNothing s (readUnfiledOwner s) := by
  unfold readUnfiledOwner
  split <;> exact stands s _

/-! ### Sign, intercom and alarm -/

theorem signOverride (value : Byte) (s : State) : AllOrNothing s (signOverrideOwner value s) := by
  unfold signOverrideOwner
  split
  · exact stands s _
  · split
    · exact stands s _
    · split
      · exact carriedOut s _ rfl _
      · exact stands s _

theorem signTestRun (s : State) : AllOrNothing s (signTestRunOwner s) := by
  unfold signTestRunOwner
  split
  · exact stands s _
  · exact carriedOut s _ rfl _

theorem signTest (value : Byte) (s : State) : AllOrNothing s (signTestOwner value s) := by
  unfold signTestOwner
  split
  · exact signTestRun s
  · split <;> exact stands s _

theorem setTalkMode (mode : Byte) (s : State) : AllOrNothing s (setTalkModeOwner mode s) := by
  unfold setTalkModeOwner
  split
  · exact stands s _
  · split <;> exact done ..

theorem setVolume (path volume : Byte) (s : State) : AllOrNothing s (setVolumeOwner path volume s) := by
  unfold setVolumeOwner
  split
  · exact stands s _
  · exact checked (done ..)

theorem setMonitor (select : Byte) (s : State) : AllOrNothing s (setMonitorOwner select s) := by
  unfold setMonitorOwner
  split
  · exact stands s _
  · exact done ..

theorem alarmStandDown (s : State) : AllOrNothing s (alarmStandDownOwner s) := by
  unfold alarmStandDownOwner
  split <;> exact done ..

/-! ### Every kind -/

/-- The work of a request's owner, by its kind; a failing LOAD or COMPARE block counts in its chain (R65, R67). -/
theorem ownerOf (p : PortId) (pl : List Byte) (k : Kind) (s : State) (notLoad : k ≠ .load) (notCompare : k ≠ .compare) :
    AllOrNothing s (ownerOf p pl k s) :=
  match k with
  | .openShift => checked (done ..)
  | .closeShift => closeShift s
  | .setPooling => setPooling _ s
  | .readShift => stands s _
  | .latchCounters => done ..
  | .readCounter => readCounter _ _ s
  | .book => withSlot fun _ => checked (done ..)
  | .cancelBooking => withSlot fun _ => checked (done ..)
  | .startHire => startHire _ _ s
  | .suspend => withSlot fun _ => checked (done ..)
  | .resume => withSlot fun _ => checked (done ..)
  | .stopHire => stopHire _ s
  | .addExtra => addExtra _ _ s
  | .removeExtra => withSlot fun _ => checked (done ..)
  | .closeUnpaid => withSlot fun _ => checked (done ..)
  | .readHire => withSlot fun _ => done ..
  | .claim => claim _ _ s
  | .release => withSlot fun _ => checked (done ..)
  | .beginPayment => withSlot fun _ => checked (done ..)
  | .paymentResult => paymentResult _ _ s
  | .reverse => reverse _ _ _ s
  | .postCash => withSlot fun _ => checked (done ..)
  | .load => absurd rfl notLoad
  | .compare => absurd rfl notCompare
  | .activate => checked (carriedOut s _ rfl [])
  | .readTariff => readTariff _ _ _ s
  | .setConfig => checked (done ..)
  | .setClock => setClockPayload _ s
  | .readJournal => checked (stands s _)
  | .ackJournal => ackJournal _ s
  | .readUnfiled => readUnfiled s
  | .ackUnfiled => checked (done ..)
  | .signOverride => signOverride _ s
  | .signTest => signTest _ s
  | .signClear => carriedOut s _ rfl _
  | .setTalkMode => setTalkMode _ s
  | .setVolume => setVolume _ _ s
  | .readIntercom => done ..
  | .intercomClear => done ..
  | .postPrompt => checked (done ..)
  | .setMonitor => setMonitor _ s
  | .alarmStandDown => alarmStandDown s
  | .readAlarmLog => stands s _
  | .clearPart => checked (carriedOut s _ rfl [])
  | .setIndicators => done ..
  | .readIndicators => stands s _
  | .ackNotices => done ..
  | .setNoticeMask => done ..
  | .setStageMask => done ..
  | .null => stands s _

/-- A payload of the wrong length is refused before the owner's work (R175). -/
theorem checkedOwner (p : PortId) (pl : List Byte) (k : Kind) (s : State) (notLoad : k ≠ .load) (notCompare : k ≠ .compare) :
    AllOrNothing s (checkedOwner p pl k s) := by
  unfold Machine.checkedOwner
  split
  · exact ownerOf p pl k s notLoad notCompare
  · exact stands s _

end AllOrNothing

/-- Settles O55: each owner refuses with the state as it was, or answers with one of the four codes of a request carried out. -/
theorem refusedRequestsChangeNothing : Obligations.RefusedRequestsChangeNothing := by
  intro p k pl s code items rest notLoad notCompare replies notOk notAccepted notLate notSkipped
  refine (AllOrNothing.checkedOwner p pl k s notLoad notCompare).stands_of_code replies fun c carries => ?_
  cases c with
  | ok => exact notOk
  | accepted => exact notAccepted
  | late => exact notLate
  | skipped => exact notSkipped
  | _ => cases carries

end Sys2Proof.Machine
end

section
/-! Admission of a request frame in the order of the steps of R175, with the statement. -/

namespace Sys2Proof.Machine

/-! ### The steps of admission -/

section
variable {p : PortId} {k : Kind} {kind tag : Byte} {pl : List Byte} {offered : Bool} {owner : Owner} {s : State}

theorem admitRequest_failing (failing : s.power = .failing) : admitRequest p kind tag offered owner s = s.refuse p tag .busy := by
  unfold admitRequest
  rw [failing]

theorem admitRequest_outstanding (running : s.power = .running) (unread : (s.port p).outstanding = true) :
    admitRequest p kind tag offered owner s = s.refuse p tag .busy := by
  unfold admitRequest
  rw [running]
  exact if_pos unread

theorem admitRequest_notOffered (ready : Ready s p) :
    admitRequest p kind tag false owner s = s.answer p kind tag (.refuse .notPermitted) := by
  obtain ⟨running, free⟩ := ready
  simp [admitRequest, running, free]

theorem admitRequest_ready (ready : Ready s p) :
    admitRequest p kind tag true owner s = (owner s).1.answer p kind tag (owner s).2 := by
  obtain ⟨running, free⟩ := ready
  simp [admitRequest, running, free]

theorem admitNull_failing (failing : s.power = .failing) : admitNull p tag s = s.refuse p tag .busy := by
  unfold admitNull
  rw [failing]

theorem admitNull_running (running : s.power = .running) : admitNull p tag s = s.takeNull p := by
  unfold admitNull
  rw [running]

/-! ### A request frame of sound check word -/

theorem takeRequest_null (found : kindOf kind = some .null) : takeRequest p kind tag pl s = admitNull p tag s := by
  unfold takeRequest
  rw [found]

theorem takeRequest_kind (found : kindOf kind = some k) (real : k ≠ .null) :
    takeRequest p kind tag pl s = admitRequest p kind tag (k.offered p) (checkedOwner p pl k) s := by
  unfold takeRequest
  rw [found]
  cases k with
  | null => exact absurd rfl real
  | _ => rfl

theorem takeRequest_unknown (unknown : kindOf kind = none) :
    takeRequest p kind tag pl s = admitRequest p kind tag false (refusedBy .notPermitted) s := by
  unfold takeRequest
  rw [unknown]

/-- A request frame is NULL, or is admitted to an owner, offered on the port or not (R175). -/
theorem takeRequest_cases (p : PortId) (kind tag : Byte) (pl : List Byte) (s : State) :
    (kindOf kind = some .null ∧ takeRequest p kind tag pl s = admitNull p tag s)
      ∨ ∃ offered owner, takeRequest p kind tag pl s = admitRequest p kind tag offered owner s := by
  cases found : kindOf kind with
  | none => exact .inr ⟨_, _, takeRequest_unknown found⟩
  | some k =>
    by_cases null : k = .null
    · subst null
      exact .inl ⟨rfl, takeRequest_null found⟩
    · exact .inr ⟨_, _, takeRequest_kind found null⟩

end

/-! ### The port is IDLE again -/

theorem refuse_receive (s : State) (p : PortId) (tag : Byte) (c : Code) : ((s.refuse p tag c).port p).receive = none :=
  congrArg Port.receive (port_putPort_same s p _)

theorem answer_receive (s : State) (p : PortId) (kind tag : Byte) (r : Reply) : ((s.answer p kind tag r).port p).receive = none :=
  congrArg Port.receive (port_putPort_same s p _)

/-- What NULL leaves of its port (R178). -/
theorem takeNull_port (s : State) (p : PortId) : (s.takeNull p).port p = (s.port p).discard := by cases p <;> rfl

theorem admitRequest_receive {s : State} (thaw : s.power ≠ .frozen) (p : PortId) (kind tag : Byte) (offered : Bool) (owner : Owner) :
    ((admitRequest p kind tag offered owner s).port p).receive = none := by
  unfold admitRequest
  split
  · contradiction
  · exact refuse_receive ..
  · split
    · exact refuse_receive ..
    · split <;> exact answer_receive ..

theorem admitNull_receive {s : State} (thaw : s.power ≠ .frozen) (p : PortId) (tag : Byte) :
    ((admitNull p tag s).port p).receive = none := by
  unfold admitNull
  split
  · contradiction
  · exact refuse_receive ..
  · exact congrArg Port.receive (takeNull_port s p)

/-- A request frame, whatever becomes of it, leaves its port IDLE (R174). -/
theorem takeRequest_receive {s : State} (thaw : s.power ≠ .frozen) (p : PortId) (kind tag : Byte) (pl : List Byte) :
    ((takeRequest p kind tag pl s).port p).receive = none := by
  rcases takeRequest_cases p kind tag pl s with ⟨-, null⟩ | ⟨offered, owner, admitted⟩
  · rw [null]
    exact admitNull_receive thaw p tag
  · rw [admitted]
    exact admitRequest_receive thaw p kind tag offered owner

/-- NULL is offered on every port (R180). -/
theorem null_offered (p : PortId) : Kind.null.offered p = true := offered_everywhere rfl p

/-- Settles O4: each step of the admission, for NULL and for the other kinds. -/
theorem portRefusesInTheOrderOfTheSteps : Obligations.PortRefusesInTheOrderOfTheSteps := by
  refine fun p kind tag pl s => ⟨fun failing => ?_, fun running unread notNull => ?_, fun ready notOffered => ?_,
    fun k ready found real offered misfit => ?_, fun k ready found real offered fits => ?_, fun thaw => takeRequest_receive thaw ..⟩
  · rcases takeRequest_cases p kind tag pl s with ⟨-, null⟩ | ⟨offered, owner, admitted⟩
    · exact null.trans (admitNull_failing failing)
    · exact admitted.trans (admitRequest_failing failing)
  · rcases takeRequest_cases p kind tag pl s with ⟨null, -⟩ | ⟨offered, owner, admitted⟩
    · exact absurd null notNull
    · exact admitted.trans (admitRequest_outstanding running unread)
  · cases found : kindOf kind with
    | none => exact (takeRequest_unknown found).trans (admitRequest_notOffered ready)
    | some k =>
      have absent := notOffered k found
      have real : k ≠ .null := fun null => by simp [null, null_offered] at absent
      rw [takeRequest_kind found real, absent]
      exact admitRequest_notOffered ready
  · rw [takeRequest_kind found real, offered, admitRequest_ready ready]
    simp [checkedOwner, misfit, refusedBy]
  · rw [takeRequest_kind found real, offered, admitRequest_ready ready]
    simp [checkedOwner, fits]

end Sys2Proof.Machine
end

section
/-! Frames built from bytes clocked in, and the selections that clock them (R174 to R176), with the statement. -/

namespace Sys2Proof.Machine

/-! ### The receive state -/

/-- A port put back as it was. -/
@[simp] theorem putPort_port (s : State) (p : PortId) : s.putPort p (s.port p) = s := by cases p <;> rfl

theorem setReceive_receive (s : State) (p : PortId) (r : Option (List Byte)) : ((s.setReceive p r).port p).receive = r :=
  congrArg Port.receive (port_putPort_same s p _)

@[simp] theorem setReceive_setReceive (s : State) (p : PortId) (q r : Option (List Byte)) :
    (s.setReceive p q).setReceive p r = s.setReceive p r := by
  unfold State.setReceive
  rw [port_putPort_same, putPort_putPort]

theorem setReceive_held {s : State} {p : PortId} {r : Option (List Byte)} (held : (s.port p).receive = r) : s.setReceive p r = s := by
  subst held
  exact putPort_port s p

/-! ### The progress of a frame -/

theorem progress_more_iff (bs : List Byte) :
    progress bs = .more ↔ bs.length < 4 ∨ ((byteAt bs 3).toNat ≤ 240 ∧ bs.length < 6 + (byteAt bs 3).toNat) := by
  unfold progress maxPayload
  split_ifs <;> simp <;> omega

theorem progress_malformed {bs : List Byte} (four : 4 ≤ bs.length) (above : 240 < (byteAt bs 3).toNat) : progress bs = .malformed := by
  unfold progress maxPayload
  rw [if_neg (Nat.not_lt.2 four), if_pos above]

theorem progress_complete {bs : List Byte} (fits : (byteAt bs 3).toNat ≤ 240) (whole : bs.length = 6 + (byteAt bs 3).toNat) :
    progress bs = .complete := by
  unfold progress maxPayload
  rw [if_neg (by omega), if_neg (Nat.not_lt.2 fits), if_neg (by omega)]

/-! ### One byte -/

section
variable {p : PortId} {s : State} {xs : List Byte} {b : Byte}

theorem receiveByte_more (held : (s.port p).receive = some xs) (goes : progress (xs ++ [b]) = .more) :
    receiveByte p s b = s.setReceive p (some (xs ++ [b])) := by
  unfold receiveByte
  rw [held]
  dsimp only
  rw [goes]

theorem receiveByte_malformed (held : (s.port p).receive = some xs) (bad : progress (xs ++ [b]) = .malformed) :
    receiveByte p s b = (s.setReceive p none).refuse p (byteAt xs 1) .frameCheck := by
  unfold receiveByte
  rw [held]
  dsimp only
  rw [bad]

theorem receiveByte_complete (held : (s.port p).receive = some xs) (whole : progress (xs ++ [b]) = .complete) :
    receiveByte p s b = takeFrame p (xs ++ [b]) (s.setReceive p none) := by
  unfold receiveByte
  rw [held]
  dsimp only
  rw [whole]

end

/-! ### Bytes in a row -/

section
variable {p : PortId} {xs : List Byte}

theorem receiveBytes_append (p : PortId) (bs cs : List Byte) (s : State) :
    receiveBytes p (bs ++ cs) s = receiveBytes p cs (receiveBytes p bs s) := List.foldl_append

/-- Bytes none of which completes the frame are held (R174). -/
theorem receiveBytes_more (ys : List Byte) : ∀ {s : State} {xs : List Byte}, (s.port p).receive = some xs →
    (∀ k, progress (xs ++ ys.take (k + 1)) = .more) → receiveBytes p ys s = s.setReceive p (some (xs ++ ys)) := by
  induction ys with
  | nil =>
    intro s xs held _
    rw [List.append_nil, setReceive_held held]
    rfl
  | cons b ys ih =>
    intro s xs held goes
    have next : receiveByte p s b = s.setReceive p (some (xs ++ [b])) := receiveByte_more held (goes 0)
    have rest := ih (setReceive_receive s p (some (xs ++ [b]))) fun k => by
      rw [List.append_assoc]
      exact goes (k + 1)
    rw [setReceive_setReceive, List.append_assoc] at rest
    exact (congrArg (receiveBytes p ys) next).trans rest

/-- Bytes that carry a frame up to its last byte but one, then that byte, then those after it. -/
theorem receiveBytes_last {s : State} {ys front more : List Byte} {b : Byte} (held : (s.port p).receive = some xs)
    (bytes : xs ++ ys = front ++ b :: more) (begun : xs.length ≤ front.length) (goes : ∀ n, progress (front.take n) = .more) :
    receiveBytes p ys s = receiveBytes p more (receiveByte p (s.setReceive p (some front)) b) := by
  obtain ⟨mid, rfl⟩ : xs <+: front :=
    List.prefix_of_prefix_length_le (List.prefix_append xs ys) (bytes ▸ List.prefix_append front _) begun
  rw [List.append_assoc] at bytes
  rw [List.append_cancel_left bytes, receiveBytes_append, receiveBytes_more mid held fun k => by
    rw [← List.take_length_add_append]
    exact goes _]
  rfl

end

/-! ### A frame to its last byte -/

theorem byteAt_append_left {xs : List Byte} {i : Nat} (inside : i < xs.length) (ys : List Byte) : byteAt (xs ++ ys) i = byteAt xs i := by
  unfold byteAt
  exact List.getD_append xs ys 0 i inside

theorem byteAt_take {n i : Nat} (bs : List Byte) (taken : i < n) : byteAt (bs.take n) i = byteAt bs i := by
  simp [byteAt, List.getD_eq_getElem?_getD, taken]

/-- Two check bytes spell a word exactly when they are the word's bytes. -/
theorem toNat_eq_beNat_iff (x : BitVec 16) (hi lo : Byte) : x.toNat = beNat [hi, lo] ↔ [hi, lo] = be2 x.toNat := by
  constructor
  · intro same
    rw [same]
    simp only [be2, beNat, List.foldl]
    congr 1
    · apply BitVec.eq_of_toNat_eq
      simp only [BitVec.toNat_ofNat]
      omega
    · congr 1
      apply BitVec.eq_of_toNat_eq
      simp only [BitVec.toNat_ofNat]
      omega
  · intro same
    rw [same, beNat_be2 x.isLt]

section
variable {p : PortId} {s : State} {head : List Byte} {hi lo : Byte}

/-- A complete frame by its head and its check bytes (R175). -/
theorem takeFrame_append (two : 2 ≤ head.length) : takeFrame p (head ++ [hi, lo]) s
    = if [hi, lo] = be2 (crc16 head).toNat then takeRequest p (byteAt head 0) (byteAt head 1) (head.drop 4) s
      else s.refuse p (byteAt head 1) .frameCheck := by
  have length : (head ++ [hi, lo]).length - 2 = head.length := by simp
  unfold takeFrame
  simp only [length, List.take_left, List.drop_left, toNat_eq_beNat_iff, byteAt_append_left (show 0 < head.length by omega),
    byteAt_append_left (show 1 < head.length by omega)]

variable {xs ys more : List Byte}

/-- A frame of a length in bounds, its head in progress or not begun, is taken at its last check byte, and what follows is ignored (R174,
R175). -/
theorem receiveBytes_frame (thaw : s.power ≠ .frozen) (held : (s.port p).receive = some xs) (begun : xs.length < head.length + 2)
    (fits : (byteAt head 3).toNat ≤ 240) (whole : head.length = 4 + (byteAt head 3).toNat)
    (bytes : xs ++ ys = (head ++ [hi, lo]) ++ more) :
    receiveBytes p ys s = takeFrame p (head ++ [hi, lo]) (s.setReceive p none) := by
  have third (tail : List Byte) : byteAt (head ++ tail) 3 = byteAt head 3 := byteAt_append_left (by omega) tail
  have goes : ∀ n, progress ((head ++ [hi]).take n) = .more := by
    intro n
    rw [progress_more_iff]
    by_cases short : n < 4
    · exact .inl ((List.length_take_le n _).trans_lt short)
    · refine .inr ?_
      rw [byteAt_take _ (by omega), third]
      have := List.length_take_le' n (head ++ [hi])
      simp only [List.length_append, List.length_singleton] at this
      omega
  have complete : progress ((head ++ [hi]) ++ [lo]) = .complete := by
    rw [List.append_assoc]
    refine progress_complete ?_ ?_ <;> rw [third]
    · exact fits
    · simp only [List.length_append, List.length_cons, List.length_nil]
      omega
  rw [receiveBytes_last (front := head ++ [hi]) (b := lo) (more := more) held (by rw [bytes]; simp)
      (by rw [List.length_append]; exact Nat.le_of_lt_succ begun) goes,
    receiveByte_complete (setReceive_receive s p _) complete, setReceive_setReceive, List.append_assoc]
  exact Framed.idle_bytes p more _ (Framed.takeFrame_idle p _ _ thaw)

/-- A frame that carries its payload's length is taken as a request or answered FRAME_CHECK, by its check bytes (R175). -/
theorem receiveBytes_request {kind tag flags : Byte} {pl : List Byte} (thaw : s.power ≠ .frozen) (held : (s.port p).receive = some xs)
    (fits : pl.length ≤ 240) (begun : xs.length < pl.length + 6)
    (bytes : xs ++ ys = (kind :: tag :: flags :: BitVec.ofNat 8 pl.length :: pl ++ [hi, lo]) ++ more) :
    receiveBytes p ys s = if [hi, lo] = be2 (crc16 (kind :: tag :: flags :: BitVec.ofNat 8 pl.length :: pl)).toNat
      then takeRequest p kind tag pl (s.setReceive p none) else (s.setReceive p none).refuse p tag .frameCheck := by
  have size : (byteAt (kind :: tag :: flags :: BitVec.ofNat 8 pl.length :: pl) 3).toNat = pl.length := byte_toNat (by omega)
  have whole : (kind :: tag :: flags :: BitVec.ofNat 8 pl.length :: pl).length = 4 + pl.length := Nat.add_comm pl.length 4
  rw [receiveBytes_frame thaw held (by omega) (size.trans_le fits) (by rw [size, whole]) bytes, takeFrame_append (by omega)]
  rfl

/-- A length above 240 is refused at the fourth byte, and what follows is ignored (R175). -/
theorem receiveBytes_malformed {kind tag flags n : Byte} (held : (s.port p).receive = some xs) (begun : xs.length < 4)
    (above : 240 < n.toNat) (bytes : xs ++ ys = kind :: tag :: flags :: n :: more) :
    receiveBytes p ys s = (s.setReceive p none).refuse p tag .frameCheck := by
  have goes : ∀ i, progress ([kind, tag, flags].take i) = .more := fun i =>
    (progress_more_iff _).2 (.inl ((List.length_take_le' i _).trans_lt (Nat.lt_succ_self 3)))
  rw [receiveBytes_last (front := [kind, tag, flags]) (b := n) (more := more) held bytes (Nat.le_of_lt_succ begun) goes,
    receiveByte_malformed (setReceive_receive s p _) (progress_malformed (bs := [kind, tag, flags] ++ [n]) (Nat.le_refl 4) above),
    setReceive_setReceive]
  exact Framed.idle_bytes p more _ (refuse_receive ..)

end

/-! ### The transfers and their selections -/

section
variable {p : PortId} {sealed : Bool} {ys : List Byte} {s : State}

theorem exec_writeStart (thaw : s.power ≠ .frozen) : exec (.writeStart p ⟨ys, sealed⟩) s
    = .next (receiveBytes p ys ((s.sampleSeal sealed).setReceive p (some []))) := congrArg Host.Outcome.next (if_neg thaw)

theorem exec_writeContinue (thaw : s.power ≠ .frozen) :
    exec (.writeContinue p ⟨ys, sealed⟩) s = .next (receiveBytes p ys (s.sampleSeal sealed)) := congrArg Host.Outcome.next (if_neg thaw)

/-- The bytes of a WRITE-START, and those of a WRITE-CONTINUE of a frame in progress, go on from the bytes held (R174). -/
theorem exec_write {i : Instr} {xs : List Byte} (thaw : s.power ≠ .frozen)
    (write : i = .writeStart p ⟨ys, sealed⟩ ∧ xs = [] ∨ i = .writeContinue p ⟨ys, sealed⟩ ∧ (s.port p).receive = some xs) :
    exec i s = .next (receiveBytes p ys ((s.sampleSeal sealed).setReceive p (some xs))) := by
  rcases write with ⟨rfl, rfl⟩ | ⟨rfl, held⟩
  · exact exec_writeStart thaw
  · rw [exec_writeContinue thaw, setReceive_held (s := s.sampleSeal sealed) held]

/-- A first byte outside 1 to 4 names no transfer (R174). -/
theorem selection_other {b : Byte} (other : b = 0 ∨ 4 < b.toNat) (rest : List Byte) : selection p sealed (b :: rest) s = .next s := by
  have names : ∀ n : Byte, 0 < n.toNat → n.toNat ≤ 4 → b ≠ n := by
    rintro n low high rfl
    rcases other with rfl | above
    · exact absurd low (by decide)
    · omega
  have none : transferOf p sealed (b :: rest) = none := by
    unfold transferOf
    dsimp only
    rw [if_neg (names 1 (by decide) (by decide)), if_neg (names 2 (by decide) (by decide)), if_neg (names 3 (by decide) (by decide)),
      if_neg (names 4 (by decide) (by decide))]
  unfold selection
  rw [none]

end

/-- Settles O5: a frame by the byte that ends it, whichever transfers carry it; bytes that end none are held; the first byte by the
transfer it names. -/
theorem framesAreBuiltAndTaken : Obligations.FramesAreBuiltAndTaken := by
  refine ⟨fun p kind tag flags sealed xs ys more i s u thaw write hu => ?_, fun p sealed s u thaw hu => ?_,
    fun p sealed rest s => ⟨rfl, rfl, rfl, rfl, fun b other => selection_other other rest, rfl⟩⟩
  · obtain rfl : u = s.sampleSeal sealed := hu
    have thawed : ((s.sampleSeal sealed).setReceive p (some xs)).power ≠ .frozen := thaw
    have held := setReceive_receive (s.sampleSeal sealed) p (some xs)
    refine ⟨fun pl fits begun bytes => ?_, fun pl hi lo fits begun unsound bytes => ?_, fun n above begun bytes => ?_⟩
    · rw [exec_write thaw write, receiveBytes_request thawed held fits begun bytes, setReceive_setReceive]
      exact congrArg Host.Outcome.next (if_pos rfl)
    · rw [exec_write thaw write, receiveBytes_request thawed held fits begun bytes, setReceive_setReceive]
      exact congrArg Host.Outcome.next (if_neg unsound)
    · rw [exec_write thaw write, receiveBytes_malformed held begun above bytes, setReceive_setReceive]
  · obtain rfl : u = s.sampleSeal sealed := hu
    refine ⟨fun xs ys held goes => ?_, fun ys idle => ?_, fun ys goes => ?_⟩
    · rw [exec_writeContinue thaw, receiveBytes_more ys (s := s.sampleSeal sealed) held goes]
    · rw [exec_writeContinue thaw, Framed.idle_bytes p ys (s.sampleSeal sealed) idle]
    · rw [exec_writeStart thaw, receiveBytes_more ys (setReceive_receive _ p (some [])) goes, setReceive_setReceive]
      rfl

end Sys2Proof.Machine
end

section
/-! READ, REPEAT and NULL (R174, R177, R178), with their statement. -/

namespace Sys2Proof.Machine

section
variable {p : PortId} {n : Nat} {s : State} {f : Frame}

theorem exec_readFrame (thaw : s.power ≠ .frozen) : exec (.readFrame p n) s = .next (s.readTransfer p n) :=
  congrArg Host.Outcome.next (if_neg thaw)

theorem exec_repeatFrame (thaw : s.power ≠ .frozen) : exec (.repeatFrame p n) s = .next (s.repeatTransfer p n) :=
  congrArg Host.Outcome.next (if_neg thaw)

/-! ### What a READ shifts out -/

theorem nextFrame_refusal {x : Port} (refused : x.refusal = some f) : x.nextFrame = some f := by
  unfold Port.nextFrame
  rw [refused]

theorem nextFrame_reply {x : Port} (none : x.refusal = none) : x.nextFrame = x.reply[x.readCount]? := by
  unfold Port.nextFrame
  rw [none]

theorem readTransfer_nothing (nothing : (s.port p).nextFrame = none) : s.readTransfer p n = s.shiftOut p (emptyFrame.bytes.take n) := by
  unfold State.readTransfer
  rw [nothing]

/-- A frame cut short stays unread (R174). -/
theorem readTransfer_short (next : (s.port p).nextFrame = some f) (short : n < f.bytes.length) :
    s.readTransfer p n = s.shiftOut p (f.bytes.take n) := by
  unfold State.readTransfer
  rw [next]
  exact if_neg (Nat.not_le.2 short)

/-- A frame shifted out to its last byte is read (R174). -/
theorem readTransfer_whole (next : (s.port p).nextFrame = some f) (whole : f.bytes.length ≤ n) :
    s.readTransfer p n = s.putPort p ({ s.port p with wire := f.bytes }.markRead f) := by
  unfold State.readTransfer State.shiftOut
  rw [next]
  dsimp only
  rw [if_pos whole, port_putPort_same, putPort_putPort, List.take_of_length_le whole]

theorem markRead_refusal {x : Port} {g : Frame} (refused : x.refusal = some g) :
    x.markRead f = { x with refusal := none, lastRead := some f } := by
  unfold Port.markRead
  rw [refused]

theorem markRead_reply {x : Port} (none : x.refusal = none) :
    x.markRead f = { x with readCount := x.readCount + 1, lastRead := some f } := by
  unfold Port.markRead
  rw [none]

/-! ### NULL -/

/-- NULL closes the chain of the Fleet port and leaves that of the others (R178). -/
theorem takeNull_chain (s : State) (p : PortId) :
    (s.takeNull p).tariffs.chain = if p = .fleet then Chain.cleared else s.tariffs.chain := by
  unfold State.takeNull
  dsimp only
  split <;> rfl

theorem takeNull_only (s : State) (p : PortId) : s.takeNull p
    = { s with ports := s.ports.put p ((s.takeNull p).port p), tariffs := { s.tariffs with chain := (s.takeNull p).tariffs.chain } } := by
  rw [takeNull_port]
  cases p <;> rfl

end

/-- Settles O6: READ by the frame that is next and whether it goes out whole, REPEAT by the last frame read, NULL by what it discards. -/
theorem framesAreReadRepeatedAndDiscarded : Obligations.FramesAreReadRepeatedAndDiscarded := by
  refine ⟨fun p n s thaw => ⟨fun f refused whole => ?_, fun f noRefusal next whole => ?_, fun f next short => ?_,
    fun nothing => ?_, ?_⟩, fun p tag s => ⟨fun running => ?_, fun failing => congrArg Host.Outcome.next (admitNull_failing failing)⟩⟩
  · rw [exec_readFrame thaw, readTransfer_whole (nextFrame_refusal refused) whole,
      markRead_refusal (x := { s.port p with wire := f.bytes }) refused]
  · rw [exec_readFrame thaw, readTransfer_whole ((nextFrame_reply noRefusal).trans next) whole,
      markRead_reply (x := { s.port p with wire := f.bytes }) noRefusal]
  · rw [exec_readFrame thaw, readTransfer_short next short]
    rfl
  · rw [exec_readFrame thaw, readTransfer_nothing nothing]
    rfl
  · rw [exec_repeatFrame thaw]
    rfl
  · exact ⟨s.takeNull p, congrArg Host.Outcome.next (admitNull_running running), takeNull_port s p,
      congrArg Port.outstanding (takeNull_port s p), takeNull_chain s p, takeNull_only s p⟩

end Sys2Proof.Machine
end

section
/-! ACK_NOTICES and the indicators (R183, R184), with their statements. -/

namespace Sys2Proof.Machine

/-! ### Notices -/

/-- While the part runs the attention line tells of an enabled kind that is pending (R181). -/
theorem attention_running {s : State} (running : s.power = .running) (p : PortId) :
    attention s p = true ↔ (s.port p).notices &&& (s.port p).enable ≠ 0 := by
  simp [attention, State.runs, running]

/-- From the power-fail warning on the attention lines are negated (R190). -/
theorem attention_stopped {s : State} (stopped : s.power ≠ .running) (p : PortId) : attention s p = false := by
  simp [attention, State.runs, stopped]

/-- A reply leaves the notice set of its port. -/
theorem replied_notices (s : State) (p : PortId) (k : Kind) (tag : Byte) (c : Code) (items : List Byte) :
    ((s.replied p k tag c items).port p).notices = (s.port p).notices := by
  cases p <;> rfl

/-- A reply leaves the enable mask of its port. -/
theorem replied_enable (s : State) (p : PortId) (k : Kind) (tag : Byte) (c : Code) (items : List Byte) :
    ((s.replied p k tag c items).port p).enable = (s.port p).enable := by
  cases p <;> rfl

/-- A reply leaves the attention line of its port. -/
theorem replied_attention (s : State) (p : PortId) (k : Kind) (tag : Byte) (c : Code) (items : List Byte) :
    attention (s.replied p k tag c items) p = attention s p := by
  unfold attention
  rw [replied_notices, replied_enable]
  rfl

/-- The kinds left when those of a mask are removed, by their bits (R183). -/
theorem getLsbD_and_not (x mask : Word) {k : Nat} (inside : k < 32) : (x &&& ~~~mask).getLsbD k = (x.getLsbD k && !mask.getLsbD k) := by
  simp [inside]

/-- The part with the kinds of a mask taken from a port's notice set (R183). -/
def State.acknowledged (s : State) (p : PortId) (mask : Word) : State :=
  s.putPort p { s.port p with notices := (s.port p).notices &&& ~~~mask }

theorem acknowledged_port (s : State) (p : PortId) (mask : Word) :
    (s.acknowledged p mask).port p = { s.port p with notices := (s.port p).notices &&& ~~~mask } := port_putPort_same ..

theorem acknowledged_enable (s : State) (p : PortId) (mask : Word) : ((s.acknowledged p mask).port p).enable = (s.port p).enable := by
  rw [acknowledged_port]

theorem acknowledged_empty (s : State) (p : PortId) : s.acknowledged p 0 = s := by
  unfold State.acknowledged
  rw [show ~~~(0 : Word) = BitVec.allOnes 32 from BitVec.not_zero, BitVec.and_allOnes]
  exact putPort_port s p

theorem ackNoticesOwner_done (p : PortId) (mask : Word) (s : State) : ackNoticesOwner p mask s
    = done (s.acknowledged p mask) (be4 (s.port p).notices.toNat ++ be4 ((s.acknowledged p mask).port p).notices.toNat) := by
  rw [acknowledged_port]
  rfl

/-- Settles O7: the owner's work is the set without the mask's kinds, and the reply leaves it. -/
theorem ackNoticesRemovesTheKindsOfItsMask : Obligations.AckNoticesRemovesTheKindsOfItsMask := by
  intro p tag mask s ready
  refine ⟨s.acknowledged p mask, _, request_done ready (offered_everywhere rfl p) (ackNoticesOwner_done p mask s), rfl, rfl,
    fun k inside => ?_, ?_, fun empty => empty ▸ acknowledged_empty s p⟩
  · rw [replied_notices, acknowledged_port]
    exact getLsbD_and_not _ _ inside
  · rw [replied_attention, replied_notices, attention_running (s := s.acknowledged p mask) ready.1, acknowledged_enable]

/-! ### Indicators -/

/-- Each indicator takes its value bit when its enable bit is set, and stands otherwise (R184). -/
theorem indicatorsAfter_getLsbD (now : BitVec 4) (enable value : Byte) {i : Nat} (inside : i < 4) :
    (indicatorsAfter now (enable.setWidth 4) (value.setWidth 4)).getLsbD i
      = if enable.getLsbD i then value.getLsbD i else now.getLsbD i := by
  unfold indicatorsAfter
  cases enabled : enable.getLsbD i <;> simp [inside, enabled]

/-- The part with its indicators set, the console told of a change (R184). -/
def State.withIndicators (s : State) (x : BitVec 4) : State :=
  if x = s.indicators then { s with indicators := x } else { s with indicators := x }.notify .console .indicator

/-- Setting the indicators reaches them and the Console port's notices alone. -/
theorem withIndicators_eq (s : State) (x : BitVec 4) : s.withIndicators x
    = { s with indicators := x, ports := { s.ports with
        console := if x = s.indicators then s.ports.console else s.ports.console.add .indicator } } := by
  unfold State.withIndicators
  split <;> rfl

/-- Settles O9: the indicators bit by bit, the notice by whether they changed. -/
theorem indicatorsFollowTheirMasks : Obligations.IndicatorsFollowTheirMasks := by
  refine fun tag s => ⟨fun enable value ready => ?_, fun ready => request_done ready rfl (owner := readIndicatorsOwner) rfl⟩
  have answered := request_done (tag := tag) ready (k := .setIndicators) rfl (owner := setIndicatorsOwner enable value)
    (t := s.withIndicators (indicatorsAfter s.indicators (enable.setWidth 4) (value.setWidth 4))) rfl
  rw [withIndicators_eq] at answered
  exact ⟨_, answered, fun i inside => indicatorsAfter_getLsbD s.indicators enable value inside, rfl, rfl, rfl⟩

end Sys2Proof.Machine
end

section
/-! The power-fail warning and the freeze (R188, R190), and what a part that does not run does not take, with the statement. -/

namespace Sys2Proof.Machine

/-! ### A part that does not run -/

section
variable {s : State} {f : State → State}

/-- The drive outputs are off from the power-fail warning on (R132, R190). -/
theorem driveLevel_stopped (stopped : s.power ≠ .running) (i : LampId) : driveLevel s i = 0 := by
  simp [driveLevel, State.runs, stopped]

theorem whenRunning_stopped (stopped : s.power ≠ .running) : whenRunning f s = s := by
  simp [whenRunning, State.runs, stopped]

/-- An event taken only while the part runs. -/
theorem event_stopped (stopped : s.power ≠ .running) : (.next (whenRunning f s) : Host.Outcome State Fault Refusal) = .next s :=
  congrArg Host.Outcome.next (whenRunning_stopped stopped)

/-- An event taken only while the part runs, when it falls (log entry 4). -/
theorem falling_stopped {c : Prop} [Decidable c] (stopped : s.power ≠ .running) :
    (.next (if c then whenRunning f s else s) : Host.Outcome State Fault Refusal) = .next s := by
  rw [whenRunning_stopped stopped, ite_self]

end

/-! ### A frozen part -/

section
variable {s : State} {p : PortId} {k : Kind} {tag : Byte} {pl : List Byte} {owner : Owner} {f : State → State}

theorem request_frozen (frozen : s.power = .frozen) : request p k tag owner s = .next s := by
  unfold request admitRequest
  rw [frozen]

theorem requestBlock_frozen (frozen : s.power = .frozen) : requestBlock p k tag pl owner s = .next s := by
  unfold requestBlock
  split
  · exact request_frozen frozen
  · rw [frozen]

theorem null_frozen (frozen : s.power = .frozen) : execNull p tag s = .next s := by
  unfold execNull admitNull
  rw [frozen]

/-- A command on a port, which a frozen part does not take. -/
theorem transfer_frozen (frozen : s.power = .frozen) : (.next (unlessFrozen f s) : Host.Outcome State Fault Refusal) = .next s :=
  congrArg Host.Outcome.next (if_pos frozen)

theorem warning_frozen (frozen : s.power = .frozen) : execPowerFailWarning s = .next s := by
  unfold execPowerFailWarning State.warned
  rw [frozen]

theorem freeze_frozen (frozen : s.power = .frozen) : execFreeze s = .next s := by
  unfold execFreeze State.freeze
  rw [frozen]

/-- A frozen part takes no command but the clock's second and its own start-ups (R190). -/
theorem exec_frozen (frozen : s.power = .frozen) (c : Instr) (notSecond : c ≠ .rtcSecond)
    (notStart : ∀ u, c ≠ .freezeExit u ∧ c ≠ .powerOn u) : exec c s = .next s :=
  have stopped : s.power ≠ .running := fun running => by simp [frozen] at running
  match c with
  | .openShift .. | .closeShift .. | .setPooling .. | .readShift .. | .latchCounters .. | .readCounter .. | .book .. | .cancelBooking ..
  | .startHire .. | .suspend .. | .resume .. | .stopHire .. | .addExtra .. | .removeExtra .. | .closeUnpaid .. | .readHire ..
  | .claim .. | .release .. | .beginPayment .. | .paymentResult .. | .reverse .. | .postCash .. | .activate .. | .readTariff ..
  | .setClock .. | .setClockRead .. | .readJournal .. | .ackJournal .. | .readUnfiled .. | .ackUnfiled .. | .signOverride ..
  | .signOverrideReport .. | .signTestRun .. | .signTestReport .. | .signClear .. | .setTalkMode .. | .setVolume .. | .readIntercom ..
  | .intercomClear .. | .postPrompt .. | .setMonitor .. | .alarmStandDown .. | .readAlarmLog .. | .clearPart .. | .setIndicators ..
  | .readIndicators .. | .ackNotices .. | .setNoticeMask .. | .setStageMask .. => request_frozen frozen
  | .load .. | .compare .. => requestBlock_frozen frozen
  | .null .. => null_frozen frozen
  | .setConfig .. | .writeStart .. | .writeContinue .. | .readFrame .. | .repeatFrame .. => transfer_frozen frozen
  | .wheelPulse | .tick .. | .configWriteComplete | .configWriteFail | .activationDone | .activationFailed | .totalizerWriteComplete
  | .totalizerWriteFail | .journalVerifyPass | .journalVerifyFail | .journalRecoveryStart | .journalRecoveryEnd .. | .frontCodecFrame ..
  | .rearCodecFrame .. => event_stopped stopped
  | .totalMetres100m | .fareTick .. | .ambientChange .. | .flashPhase .. | .signTestStep .. | .bookingExpired .. | .paymentExpired ..
  | .claimExpired .. | .partClearComplete .. | .alarmPress .. | .promptEnd .. | .chimeEnd .. => falling_stopped stopped
  | .powerFailWarning => warning_frozen frozen
  | .freeze => freeze_frozen frozen
  | .rtcSecond => absurd rfl notSecond
  | .freezeExit u => absurd rfl (notStart u).1
  | .powerOn u => absurd rfl (notStart u).2

end

/-- Settles O52: the warning and the freeze by the states they lead to, the rest by how each command is gated by the supply. -/
theorem warningAndFreezeStopTheWork : Obligations.WarningAndFreezeStopTheWork := by
  refine fun s => ⟨fun running => ?_, fun failing => ?_, exec_frozen, fun stopped => ⟨fun l sl entry => ?_, fun mic => ?_,
    fun failed => ?_, ?_⟩⟩
  · refine ⟨_, ?_, rfl, attention_stopped nofun, driveLevel_stopped nofun⟩
    show Host.Outcome.next s.warned = _
    unfold State.warned
    rw [running]
    rfl
  · show Host.Outcome.next s.freeze = _
    unfold State.freeze
    rw [failing]
  · have falls : ∀ event, (.next (tickWith event l s) : Host.Outcome State Fault Refusal) = .next s := fun _ => falling_stopped stopped
    exact ⟨event_stopped stopped, falls _, falls _, falls _, falls _, falls _, falls _, falls _, falls _, falls _⟩
  · exact ⟨event_stopped stopped, event_stopped stopped, falling_stopped stopped, falling_stopped stopped⟩
  · exact event_stopped stopped
  · exact ⟨event_stopped stopped, falling_stopped stopped, event_stopped stopped, event_stopped stopped, event_stopped stopped,
      event_stopped stopped, event_stopped stopped, event_stopped stopped, event_stopped stopped, event_stopped stopped,
      event_stopped stopped⟩

end Sys2Proof.Machine
end

section
/-! How far the requests on hires and payments reach: within a filing, START_HIRE and REMOVE_EXTRA one field further (R6 to R21, R74 to
R90, R100). -/

namespace Sys2Proof.Machine

/-! ### Shared by the owners -/

/-- The work of a request of this owner reaches no further than a filing: hires, ports, sign, shift and journal. -/
def FilesOnly (owner : Owner) : Prop := ∀ s : State, (owner s).1.beyondFiling = s.beyondFiling

/-- The settlement check at the end of a request, on the record it has written (R19). -/
theorem putAndSettle_beyondFiling (s : State) (sl : SlotId) (h : Hire) :
    ((s.putHire sl h).settleAndFile sl).beyondFiling = s.beyondFiling := by simp

theorem renew_beyondFiling (s : State) (p : PortId) (sl : SlotId) : (s.renew p sl).beyondFiling = s.beyondFiling :=
  beyondFiling_of_beyondStage (renew_beyondStage s p sl)

namespace FilesOnly

/-- Checks reach no further than the work behind them. -/
theorem checked {checks : List (Bool × Code)} {work : Owner} (s : State) (files : (work s).1.beyondFiling = s.beyondFiling) :
    (Machine.checked checks work s).1.beyondFiling = s.beyondFiling := chk_rel (Q := fun t => t.beyondFiling = s.beyondFiling) rfl files

/-- Nor does the finding of the slot. -/
theorem slot {work : SlotId → Owner} (b : Byte) (files : ∀ sl, FilesOnly (work sl)) : FilesOnly (withSlot b work) := fun s =>
  slot_rel (Q := fun t => t.beyondFiling = s.beyondFiling) rfl fun sl => files sl s

/-! ### The Hire Controller and CLOSE_SHIFT -/

theorem closeShift : FilesOnly closeShiftOwner := fun s => by
  unfold closeShiftOwner
  split
  · exact closeShift_beyondFiling s
  · rfl

theorem book (slot : Byte) (ref : BitVec 64) (d : Half) : FilesOnly (bookOwner slot ref d) :=
  FilesOnly.slot _ fun _ s => checked s (enterStage_beyondFiling _ _ _)

theorem cancelBooking (slot : Byte) : FilesOnly (cancelBookingOwner slot) :=
  FilesOnly.slot _ fun _ s => checked s (enterStage_beyondFiling _ _ _)

theorem suspend (slot : Byte) : FilesOnly (suspendOwner slot) :=
  FilesOnly.slot _ fun _ s => checked s ((count_beyondFiling _ _ _).trans (enterStage_beyondFiling _ _ _))

theorem resume (slot : Byte) : FilesOnly (resumeOwner slot) :=
  FilesOnly.slot _ fun _ s => checked s (enterStage_beyondFiling _ _ _)

theorem stopHire (slot : Byte) : FilesOnly (stopHireOwner slot) := by
  refine FilesOnly.slot _ fun sl s => ?_
  dsimp only
  split
  · exact enterStage_beyondFiling _ _ _
  · exact enterStage_beyondFiling _ _ _
  · rfl
  · exact checked s rfl
  · rfl
  · rfl
  · rfl

theorem addExtra (slot extra : Byte) : FilesOnly (addExtraOwner slot extra) := by
  refine FilesOnly.slot _ fun sl s => checked s ?_
  split
  · rfl
  · exact checked s (putAndSettle_beyondFiling _ _ _)

theorem closeUnpaid (slot : Byte) : FilesOnly (closeUnpaidOwner slot) :=
  FilesOnly.slot _ fun _ s => checked s ((fileOn_beyondFiling _).trans (enterFiling_beyondFiling _ _ _))

theorem readHire (p : PortId) (slot : Byte) : FilesOnly (readHireOwner p slot) :=
  FilesOnly.slot _ fun sl s => renew_beyondFiling s p sl

/-! ### The Settlement Unit -/

theorem claim (p : PortId) (slot : Byte) : FilesOnly (claimOwner p slot) := by
  refine FilesOnly.slot _ fun sl s => checked s ?_
  split
  · exact renew_beyondFiling s p sl
  · exact checked s (putAndSettle_beyondFiling _ _ _)

theorem release (p : PortId) (slot : Byte) : FilesOnly (releaseOwner p slot) :=
  FilesOnly.slot _ fun _ s => checked s (putAndSettle_beyondFiling _ _ _)

theorem beginPayment (p : PortId) (slot method : Byte) (amount tip : Word) : FilesOnly (beginPaymentOwner p slot method amount tip) :=
  FilesOnly.slot _ fun _ s => checked s (putAndSettle_beyondFiling _ _ _)

theorem postCash (slot : Byte) (amount tip : Word) : FilesOnly (postCashOwner slot amount tip) :=
  FilesOnly.slot _ fun _ s => checked s (putAndSettle_beyondFiling _ _ _)

/-- A reversal gives an offline amount back to the shift (R89). -/
theorem reverseEntry (p : PortId) (sl : SlotId) (index : Nat) (e : Payment) : FilesOnly (reverseEntry p sl index e) := fun s => by
  refine (putAndSettle_beyondFiling _ _ _).trans ?_
  split
  · exact setOffline_beyondFiling _ _
  · rfl

theorem reverse (p : PortId) (slot entry : Byte) : FilesOnly (reverseOwner p slot entry) := by
  refine FilesOnly.slot _ fun sl s => checked s ?_
  split
  · rfl
  · exact checked s (reverseEntry _ _ _ _ s)

theorem writeResult (p : PortId) (sl : SlotId) (index : Nat) (e : Payment) : FilesOnly (writeResult p sl index e) := fun s =>
  putAndSettle_beyondFiling s _ _

theorem pendingResult (p : PortId) (sl : SlotId) (f : ResultFields) (approved : Bool) (route : Route) (e : Payment) :
    FilesOnly (pendingResult p sl f approved route e) := fun s => by
  unfold Machine.pendingResult
  split
  · rfl
  · split
    · rfl
    · split
      · exact writeResult _ _ _ _ s
      · split
        · exact writeResult _ _ _ _ s
        · split
          · exact (writeResult _ _ _ _ _).trans (setOffline_beyondFiling _ _)
          · rfl

theorem lateResult (s : State) (sl : SlotId) (f : ResultFields) (approved : Bool) (e : Payment) :
    (s.lateResult sl f approved e).beyondFiling = s.beyondFiling := by
  unfold State.lateResult
  dsimp only
  split
  · rfl
  · split
    · split
      · rfl
      · exact lateApproval_beyondFiling _ _ _ _ _ _ _
    · exact lateApproval_beyondFiling _ _ _ _ _ _ _

theorem expiredResult (p : PortId) (sl : SlotId) (f : ResultFields) (approved : Bool) (e : Payment) :
    FilesOnly (expiredResult p sl f approved e) := fun s => by
  unfold Machine.expiredResult
  split
  · rfl
  · exact (renew_beyondFiling _ _ _).trans (lateResult _ _ _ _ _)

theorem presentResult (p : PortId) (sl : SlotId) (f : ResultFields) (approved : Bool) (route : Route) :
    FilesOnly (presentResult p sl f approved route) := fun s => by
  unfold Machine.presentResult
  dsimp only
  split
  · rfl
  · split
    · rfl
    · split
      · rfl
      · split
        · exact pendingResult _ _ _ _ _ _ s
        · exact expiredResult _ _ _ _ _ s
        · rfl

theorem goneResult (sl : SlotId) (f : ResultFields) (approved : Bool) : FilesOnly (goneResult sl f approved) := fun s => by
  unfold Machine.goneResult
  split
  · rfl
  · split
    · exact lateApproval_beyondFiling _ _ _ _ _ _ _
    · rfl

theorem paymentResult (p : PortId) (f : ResultFields) : FilesOnly (paymentResultOwner p f) := fun s => by
  unfold paymentResultOwner
  split
  · split
    · rfl
    · split
      · exact presentResult _ _ _ _ _ s
      · exact goneResult _ _ _ s
  · rfl

end FilesOnly

/-! ### START_HIRE and REMOVE_EXTRA -/

/-- What START_HIRE may reach: the next hire number, and beside it what a change of stage may. -/
def StartReach (s t : State) : Prop := ∃ n, t.beyondStage = ({ s with nextHire := n } : State).beyondStage

/-- What REMOVE_EXTRA may reach: the draws, and beside them what a filing may. -/
def RemovalReach (s t : State) : Prop := ∃ d, t.beyondFiling = ({ s with draws := d } : State).beyondFiling

theorem StartReach.refl (s : State) : StartReach s s := ⟨s.nextHire, rfl⟩

theorem RemovalReach.refl (s : State) : RemovalReach s s := ⟨s.draws, rfl⟩

/-- A start takes a hire number and changes the stage of its slot (R4, R11). -/
theorem startHireOwner_reach (slot choice : Byte) (s : State) : StartReach s (startHireOwner slot choice s).1 := by
  refine slot_rel (Q := StartReach s) (.refl s) fun sl => chk_rel (Q := StartReach s) (.refl s) ?_
  split
  · exact .refl s
  · exact chk_rel (Q := StartReach s) (.refl s) ⟨_, enterStage_beyondStage _ _ _⟩

/-- A removal may draw the amount of an empty place, and ends in the settlement check (R18, R52; log entry 1). -/
theorem removeExtraOwner_reach (slot extra : Byte) (s : State) : RemovalReach s (removeExtraOwner slot extra s).1 :=
  slot_rel (Q := RemovalReach s) (.refl s) fun _ => chk_rel (Q := RemovalReach s) (.refl s) ⟨_, putAndSettle_beyondFiling _ _ _⟩

/-- A state within the reach of a change of stage is another but for hires, ports and sign. -/
theorem eq_of_beyondStage {s t : State} (h : t.beyondStage = s.beyondStage) :
    t = { s with hires := t.hires, ports := t.ports, sign := t.sign } := by
  have out := eq_of_beyondFiling (beyondFiling_of_beyondStage h)
  obtain ⟨shift, journal⟩ := kept_of_beyondStage h
  rw [shift, journal] at out
  exact out

end Sys2Proof.Machine
end

section
/-! The frames of the commands (R6, R31, R63 to R71, R74 to R90, R112 to R114, R126, R128, R135, R142 to R144, R151, R152, R154 to R164,
R169, R170, R174, R178, R182 to R184, R187): what each owner moves, what admission adds to it, and the statement. -/

namespace Sys2Proof.Machine

/-! ### Owners that move one part of the state -/

/-- A state is another but for one port. -/
def PortMoved (p : PortId) (s t : State) : Prop := ∃ x, t = s.putPort p x

/-- A state is another but for the sign. -/
def SignMoved (s t : State) : Prop := ∃ x, t = { s with sign := x }

/-- A state is another but for the intercom. -/
def TalkMoved (s t : State) : Prop := ∃ x, t = { s with intercom := x }

/-- A state is another but for the Tariff Store. -/
def TariffsMoved (s t : State) : Prop := ∃ x, t = { s with tariffs := x }

/-- A state is another but for the alarm and the sign. -/
def AlarmMoved (s t : State) : Prop := ∃ x y, t = { s with alarm := x, sign := y }

theorem PortMoved.refl (p : PortId) (s : State) : PortMoved p s s := ⟨s.port p, (putPort_port s p).symm⟩

theorem SignMoved.refl (s : State) : SignMoved s s := ⟨s.sign, rfl⟩

theorem TalkMoved.refl (s : State) : TalkMoved s s := ⟨s.intercom, rfl⟩

theorem TariffsMoved.refl (s : State) : TariffsMoved s s := ⟨s.tariffs, rfl⟩

theorem AlarmMoved.refl (s : State) : AlarmMoved s s := ⟨s.alarm, s.sign, rfl⟩

/-- The work of a request of this owner leaves the state. -/
def ReadsOnly (owner : Owner) : Prop := ∀ s : State, (owner s).1 = s

/-- It moves at most the port the request arrived on. -/
def MovesPort (p : PortId) (owner : Owner) : Prop := ∀ s : State, PortMoved p s (owner s).1

/-- It moves the sign alone. -/
def MovesSign (owner : Owner) : Prop := ∀ s : State, SignMoved s (owner s).1

/-- It moves the intercom alone. -/
def MovesTalk (owner : Owner) : Prop := ∀ s : State, TalkMoved s (owner s).1

/-- It moves the Tariff Store alone. -/
def MovesTariffs (owner : Owner) : Prop := ∀ s : State, TariffsMoved s (owner s).1

theorem ReadsOnly.movesPort {owner : Owner} (reads : ReadsOnly owner) (p : PortId) : MovesPort p owner := fun s =>
  (reads s).symm ▸ .refl p s

/-! Requests that only read. -/

theorem readsOnly_readCounter (p : PortId) (index : Byte) : ReadsOnly (readCounterOwner p index) := fun s => by
  unfold readCounterOwner
  split
  · rfl
  · split <;> rfl

theorem readsOnly_readTariff (set item place : Byte) : ReadsOnly (readTariffOwner set item place) := fun s => by
  unfold readTariffOwner
  split
  · rfl
  · split <;> rfl

theorem readsOnly_readJournal (count : Byte) : ReadsOnly (readJournalOwner count) := fun s => chk_rel (Q := fun t => t = s) rfl rfl

theorem readsOnly_readUnfiled : ReadsOnly readUnfiledOwner := fun s => by
  unfold readUnfiledOwner
  split <;> rfl

/-- READ_HIRE from a port without the claim on the hire it names renews nothing (R75). -/
theorem readHireOwner_unclaimed {p : PortId} {slot : Byte} {s : State}
    (unclaimed : ∀ sl, slotOf slot = some sl → (s.hire sl).claimedBy p = false) : (readHireOwner p slot s).1 = s := by
  unfold readHireOwner
  cases named : slotOf slot with
  | none =>
    unfold withSlot
    rw [named]
    rfl
  | some sl =>
    rw [withSlot_some named]
    show s.renew p sl = s
    unfold State.renew
    rw [unclaimed sl named]
    rfl

/-! Requests on the sign. -/

theorem movesSign_override (value : Byte) : MovesSign (signOverrideOwner value) := fun s => by
  unfold signOverrideOwner
  split
  · exact .refl s
  · split
    · exact .refl s
    · split
      · rename_i ov _ _
        exact ⟨_, rederive_only { s with sign := { s.sign with override := ov } }⟩
      · exact .refl s

theorem movesSign_testRun : MovesSign signTestRunOwner := fun s => by
  unfold signTestRunOwner
  split
  · exact .refl s
  · exact ⟨s.sign.beginTest, rfl⟩

theorem movesSign_clear : MovesSign signClearOwner := fun _ => ⟨_, rfl⟩

/-! Requests on the intercom. -/

theorem movesTalk_mode (mode : Byte) : MovesTalk (setTalkModeOwner mode) := fun s => by
  unfold setTalkModeOwner
  split
  · exact .refl s
  · split
    · exact .refl s
    · exact ⟨_, rfl⟩

theorem movesTalk_volume (path volume : Byte) : MovesTalk (setVolumeOwner path volume) := fun s => by
  unfold setVolumeOwner
  split
  · exact .refl s
  · exact chk_rel (Q := TalkMoved s) (.refl s) ⟨_, rfl⟩

theorem movesTalk_read : MovesTalk readIntercomOwner := fun _ => ⟨_, rfl⟩

theorem movesTalk_clear : MovesTalk intercomClearOwner := fun _ => ⟨_, rfl⟩

theorem movesTalk_prompt (tone : Byte) : MovesTalk (postPromptOwner tone) := fun s =>
  chk_rel (Q := TalkMoved s) (.refl s) ⟨_, rfl⟩

theorem movesTalk_monitor (select : Byte) : MovesTalk (setMonitorOwner select) := fun s => by
  unfold setMonitorOwner
  split
  · exact .refl s
  · exact ⟨_, rfl⟩

/-! Requests on the tariffs. -/

theorem movesTariffs_answerBlock (pl : List Byte) (c : Chain) (code : Code) (result : List Byte) :
    MovesTariffs (answerBlock pl c code result) := fun s => by
  unfold answerBlock
  split <;> exact ⟨_, rfl⟩

theorem movesTariffs_load (pl : List Byte) : MovesTariffs (loadOwner pl) := fun s => by
  refine chk_rel (Q := TariffsMoved s) (.refl s) ?_
  unfold loadBlock
  split
  · exact movesTariffs_answerBlock _ _ _ _ s
  · split
    · rename_i t _
      exact movesTariffs_answerBlock _ _ _ _ { s with tariffs := { s.tariffs with staging := t } }
    · exact movesTariffs_answerBlock _ _ _ _ s

theorem movesTariffs_compare (pl : List Byte) : MovesTariffs (compareOwner pl) := fun s => by
  refine chk_rel (Q := TariffsMoved s) (.refl s) ?_
  unfold compareBlock
  split
  · exact movesTariffs_answerBlock _ _ _ _ s
  · split <;> exact movesTariffs_answerBlock _ _ _ _ s

theorem movesTariffs_activate : MovesTariffs activateOwner := fun s =>
  chk_rel (Q := TariffsMoved s) (.refl s) ⟨_, rfl⟩

/-- A stand-down moves the alarm, and the sign by the end of the flash (R139, R169). -/
theorem alarmStandDownOwner_moves (s : State) : AlarmMoved s (alarmStandDownOwner s).1 := by
  unfold alarmStandDownOwner
  split
  · exact ⟨_, _, rfl⟩
  · exact .refl s

/-! ### What a taken command leaves -/

/-- A state with the property, and beside it at most a port changed. -/
def AnsweredFrom (Q : State → Prop) (p : PortId) (t : State) : Prop := ∃ u x, Q u ∧ t = u.putPort p x

theorem AnsweredFrom.of_reached {Q : State → Prop} {t : State} (reached : Q t) (p : PortId) : AnsweredFrom Q p t :=
  ⟨t, t.port p, reached, (putPort_port t p).symm⟩

section
variable {Q : State → Prop} {p : PortId} {k : Kind} {tag : Byte} {pl : List Byte} {owner : Owner} {f : State → State} {s t : State}

/-- A request leaves the state, or its owner's work, and beside it at most the port it arrived on (R175). -/
theorem request_reaches (stays : Q s) (work : Q (owner s).1) (taken : request p k tag owner s = .next t) :
    AnsweredFrom Q p t := by
  injection taken with admitted
  rw [← admitted]
  refine admit_rel (R := fun _ => AnsweredFrom Q p) (.of_reached stays p) ?_ (.of_reached work p)
  rintro _ x ⟨u, y, reached, rfl⟩
  exact ⟨u, x, reached, putPort_putPort u p y x⟩

/-- So does a block, whose payload too long is malformed (R175). -/
theorem requestBlock_reaches (stays : Q s) (work : Q (owner s).1) (taken : requestBlock p k tag pl owner s = .next t) :
    AnsweredFrom Q p t := by
  unfold requestBlock at taken
  split at taken
  · exact request_reaches stays work taken
  · injection taken with refused
    rw [← refused]
    split
    · exact .of_reached stays p
    · exact ⟨s, _, stays, rfl⟩

/-- An event leaves the state or its own work on it. -/
theorem event_reaches (stays : Q s) (work : Q (f s)) (taken : (.next (whenRunning f s) : Host.Outcome State Fault Refusal) = .next t) :
    Q t := by
  injection taken with same
  rw [← same]
  unfold whenRunning
  split
  · exact work
  · exact stays

/-- So does an event that falls or does not (log entry 4). -/
theorem falling_reaches {c : Prop} [Decidable c] (stays : Q s) (work : Q (f s))
    (taken : (.next (if c then whenRunning f s else s) : Host.Outcome State Fault Refusal) = .next t) : Q t := by
  split at taken
  · exact event_reaches stays work taken
  · injection taken with same
    exact same ▸ stays

/-- So does a transfer, of a part that is not frozen. -/
theorem transfer_reaches (stays : Q s) (work : Q (f s))
    (taken : (.next (unlessFrozen f s) : Host.Outcome State Fault Refusal) = .next t) : Q t := by
  injection taken with same
  rw [← same]
  unfold unlessFrozen
  split
  · exact stays
  · exact work

/-! ### The frames -/

theorem onlyPort_putPort (s : State) (p : PortId) (x : Port) : OnlyPort s (s.putPort p x) p := by
  unfold OnlyPort
  rw [port_putPort_same]
  rfl

theorem MovesPort.frame (moves : MovesPort p owner) (taken : request p k tag owner s = .next t) : OnlyPort s t p := by
  obtain ⟨_, x, ⟨y, rfl⟩, rfl⟩ := request_reaches (Q := PortMoved p s) (.refl p s) (moves s) taken
  rw [putPort_putPort]
  exact onlyPort_putPort s p x

theorem ReadsOnly.frame (reads : ReadsOnly owner) (taken : request p k tag owner s = .next t) : OnlyPort s t p :=
  (reads.movesPort p).frame taken

theorem FilesOnly.frame (files : FilesOnly owner) (taken : request p k tag owner s = .next t) :
    t = { s with hires := t.hires, ports := t.ports, sign := t.sign, shift := t.shift, journal := t.journal } := by
  obtain ⟨u, x, reached, rfl⟩ := request_reaches (Q := fun u => u.beyondFiling = s.beyondFiling) rfl (files s) taken
  exact eq_of_beyondFiling reached

theorem MovesSign.frame (moves : MovesSign owner) (taken : request p k tag owner s = .next t) :
    t = { s with sign := t.sign, ports := s.ports.put p (t.port p) } := by
  obtain ⟨_, x, ⟨y, rfl⟩, rfl⟩ := request_reaches (Q := SignMoved s) (.refl s) (moves s) taken
  exact onlyPort_putPort _ p x

theorem MovesTalk.frame (moves : MovesTalk owner) (taken : request p k tag owner s = .next t) :
    t = { s with intercom := t.intercom, ports := s.ports.put p (t.port p) } := by
  obtain ⟨_, x, ⟨y, rfl⟩, rfl⟩ := request_reaches (Q := TalkMoved s) (.refl s) (moves s) taken
  exact onlyPort_putPort _ p x

/-- A Tariff Store moved with at most one port. -/
theorem tariffs_frame (reached : AnsweredFrom (TariffsMoved s) p t) :
    t = { s with tariffs := t.tariffs, ports := s.ports.put p (t.port p) } := by
  obtain ⟨_, x, ⟨y, rfl⟩, rfl⟩ := reached
  exact onlyPort_putPort _ p x

theorem MovesTariffs.frame (moves : MovesTariffs owner) (taken : request p k tag owner s = .next t) :
    t = { s with tariffs := t.tariffs, ports := s.ports.put p (t.port p) } :=
  tariffs_frame (request_reaches (Q := TariffsMoved s) (.refl s) (moves s) taken)

theorem MovesTariffs.blockFrame (moves : MovesTariffs owner) (taken : requestBlock p k tag pl owner s = .next t) :
    t = { s with tariffs := t.tariffs, ports := s.ports.put p (t.port p) } :=
  tariffs_frame (requestBlock_reaches (Q := TariffsMoved s) (.refl s) (moves s) taken)

end

/-! ### Single commands -/

section
variable {p : PortId} {tag a b : Byte} {n : Nat} {s t : State}

/-- A READ moves its port alone (R174, R177). -/
theorem readTransfer_onlyPort (s : State) (p : PortId) (n : Nat) : OnlyPort s (s.readTransfer p n) p := by
  unfold State.readTransfer State.shiftOut
  dsimp only
  split
  · exact onlyPort_putPort s p _
  · split
    · rw [putPort_putPort]
      exact onlyPort_putPort s p _
    · exact onlyPort_putPort s p _

theorem onlyPort_refl (s : State) (p : PortId) : OnlyPort s s p := by
  have put := onlyPort_putPort s p (s.port p)
  rwa [putPort_port] at put

theorem readHire_frame (unclaimed : ∀ sl, slotOf a = some sl → (s.hire sl).claimedBy p = false)
    (taken : exec (.readHire p tag a) s = .next t) : OnlyPort s t p := by
  obtain ⟨_, x, rfl, rfl⟩ := request_reaches (Q := fun u => u = s) rfl (readHireOwner_unclaimed unclaimed) taken
  exact onlyPort_putPort _ p x

theorem startHire_frame (taken : exec (.startHire p tag a b) s = .next t) :
    t = { s with hires := t.hires, ports := t.ports, sign := t.sign, nextHire := t.nextHire } := by
  obtain ⟨u, x, ⟨n, reached⟩, rfl⟩ := request_reaches (Q := StartReach s) (.refl s) (startHireOwner_reach a b s) taken
  have number : (u.putPort p x).nextHire = n := congrArg State.nextHire reached
  rw [number]
  exact eq_of_beyondStage (t := u.putPort p x) reached

theorem removeExtra_frame (taken : exec (.removeExtra p tag a b) s = .next t) : t = { s with
    hires := t.hires, ports := t.ports, sign := t.sign, shift := t.shift, journal := t.journal, draws := t.draws } := by
  obtain ⟨u, x, ⟨d, reached⟩, rfl⟩ := request_reaches (Q := RemovalReach s) (.refl s) (removeExtraOwner_reach a b s) taken
  have drawn : (u.putPort p x).draws = d := congrArg State.draws reached
  rw [drawn]
  exact eq_of_beyondFiling (t := u.putPort p x) reached

theorem alarmStandDown_frame (taken : exec (.alarmStandDown p tag) s = .next t) :
    t = { s with alarm := t.alarm, sign := t.sign, ports := s.ports.put p (t.port p) } := by
  obtain ⟨_, x, ⟨y, z, rfl⟩, rfl⟩ := request_reaches (Q := AlarmMoved s) (.refl s) (alarmStandDownOwner_moves s) taken
  exact onlyPort_putPort _ p x

/-- NULL closes at most a chain (R178). -/
theorem null_frame (taken : exec (.null p tag) s = .next t) :
    t = { s with tariffs := t.tariffs, ports := s.ports.put p (t.port p) } := by
  refine tariffs_frame ?_
  injection taken with admitted
  rw [← admitted]
  unfold admitNull
  split
  · exact .of_reached (.refl s) p
  · exact ⟨s, _, .refl s, rfl⟩
  · exact ⟨{ s with tariffs := { s.tariffs with chain := (s.takeNull p).tariffs.chain } }, _, ⟨_, rfl⟩, takeNull_only s p⟩

theorem TalkMoved.frame (moved : TalkMoved s t) : t = { s with intercom := t.intercom } := by
  obtain ⟨x, rfl⟩ := moved
  rfl

/-- The state another has come to by wheel pulses (R31). -/
def Pulsed (s t : State) : Prop := t = { s with
  hires := t.hires, ports := t.ports, sign := t.sign, shift := t.shift, vacantRem := t.vacantRem, odoRem := t.odoRem }

theorem wheelPulse_pulsed (s : State) : Pulsed s s.wheelPulse := by
  obtain ⟨_, -, out⟩ := wheelPulse_out s
  rw [out]
  rfl

end

/-! ### The statement -/

/-- Settles O56: each request by what its owner moves and the port it is answered on, each event by its own work. -/
theorem commandsKeepToTheirOwnState : Obligations.CommandsKeepToTheirOwnState := by
  refine ⟨fun p tag a b c mask n s t => ⟨?_, readHire_frame⟩,
    fun p tag a b ref d x y f pl mic s t => ⟨?_, startHire_frame, removeExtra_frame, ?_, ?_, ?_, alarmStandDown_frame, ?_, ?_⟩⟩
  all_goals simp only [List.forall_mem_cons, List.not_mem_nil, false_imp_iff, implies_true, and_true]
  · have still {owner : Owner} {k : Kind} (reads : ReadsOnly owner) : request p k tag owner s = .next t → OnlyPort s t p := reads.frame
    have moved {owner : Owner} {k : Kind} (moves : MovesPort p owner) : request p k tag owner s = .next t → OnlyPort s t p :=
      moves.frame
    have shifted {f : State → State} (work : OnlyPort s (f s) p) :
        (.next (unlessFrozen f s) : Host.Outcome State Fault Refusal) = .next t → OnlyPort s t p :=
      transfer_reaches (Q := fun u => OnlyPort s u p) (onlyPort_refl s p) work
    exact ⟨still fun _ => rfl, moved fun _ => ⟨_, rfl⟩, still (readsOnly_readCounter p a), still (readsOnly_readTariff a b c),
      still fun _ => rfl, still (readsOnly_readJournal a), still readsOnly_readUnfiled, still fun _ => rfl, still fun _ => rfl,
      still fun _ => rfl, still fun _ => rfl, moved fun _ => ⟨_, rfl⟩, moved fun _ => ⟨_, rfl⟩, moved fun _ => ⟨_, rfl⟩,
      shifted (readTransfer_onlyPort s p n), shifted (onlyPort_putPort s p _)⟩
  · exact ⟨(FilesOnly.book a ref d).frame, (FilesOnly.cancelBooking a).frame, (FilesOnly.suspend a).frame, (FilesOnly.resume a).frame,
      (FilesOnly.stopHire a).frame, (FilesOnly.addExtra a b).frame, (FilesOnly.closeUnpaid a).frame, (FilesOnly.readHire p a).frame,
      (FilesOnly.claim p a).frame, (FilesOnly.release p a).frame, (FilesOnly.beginPayment p a b x y).frame,
      (FilesOnly.paymentResult p f).frame, (FilesOnly.reverse p a b).frame, (FilesOnly.postCash a x y).frame,
      FilesOnly.closeShift.frame⟩
  · exact ⟨(movesSign_override a).frame, movesSign_testRun.frame, movesSign_clear.frame⟩
  · exact ⟨(movesTalk_mode a).frame, (movesTalk_volume a b).frame, movesTalk_read.frame, movesTalk_clear.frame,
      (movesTalk_prompt a).frame, (movesTalk_monitor a).frame⟩
  · exact ⟨(movesTariffs_load pl).blockFrame, (movesTariffs_compare pl).blockFrame, movesTariffs_activate.frame, null_frame⟩
  · have sent {g : State → State} (work : TalkMoved s (g s))
        (taken : (.next (whenRunning g s) : Host.Outcome State Fault Refusal) = .next t) :=
      (event_reaches (Q := TalkMoved s) (.refl s) work taken).frame
    have ends {c : Prop} [Decidable c] {g : State → State} (work : TalkMoved s (g s))
        (taken : (.next (if c then whenRunning g s else s) : Host.Outcome State Fault Refusal) = .next t) :=
      (falling_reaches (Q := TalkMoved s) (.refl s) work taken).frame
    exact ⟨sent ⟨_, rfl⟩, sent ⟨_, rfl⟩, ends ⟨_, rfl⟩, ends ⟨_, rfl⟩⟩
  · exact ⟨event_reaches (Q := Pulsed s) rfl (wheelPulse_pulsed s), falling_reaches (Q := Pulsed s) rfl (wheelPulse_pulsed s)⟩

end Sys2Proof.Machine
end

section
/-! The command queue (log entry 3): a step runs its front command, and no command's work reaches it, with the two statements. -/

namespace Sys2Proof.Machine

/-- Settles O1: `step` by its two cases. -/
theorem stepRunsTheFrontCommand : Obligations.StepRunsTheFrontCommand := by
  refine ⟨fun _ _ _ => rfl, fun s empty => ?_⟩
  unfold step
  rw [empty]

/-! ### Shared operations -/

theorem pending_of_beyondFiling {s t : State} (h : t.beyondFiling = s.beyondFiling) : t.pending = s.pending :=
  (congrArg State.pending h :)

theorem rederive_pending (s : State) : s.rederive.pending = s.pending := pending_of_beyondFiling (rederive_beyondFiling s)

theorem updateLow_pending (s : State) : s.updateLow.pending = s.pending := pending_of_beyondFiling (updateLow_beyondFiling s)

theorem handOver_pending (s : State) (b : RecordBody) : (s.handOver b).pending = s.pending :=
  pending_of_beyondFiling (handOver_beyondFiling s b)

theorem fileOn_pending (s : State) : s.fileOn.pending = s.pending := pending_of_beyondFiling (fileOn_beyondFiling s)

/-! ### Requests -/

/-- The work of a request of this owner leaves the command queue. -/
def KeepsQueue (owner : Owner) : Prop := ∀ s : State, (owner s).1.pending = s.pending

theorem ReadsOnly.keepsQueue {owner : Owner} (reads : ReadsOnly owner) : KeepsQueue owner := fun s => congrArg State.pending (reads s)

theorem FilesOnly.keepsQueue {owner : Owner} (files : FilesOnly owner) : KeepsQueue owner := fun s => pending_of_beyondFiling (files s)

theorem MovesSign.keepsQueue {owner : Owner} (moves : MovesSign owner) : KeepsQueue owner := fun s => by
  obtain ⟨_, moved⟩ := moves s
  rw [moved]

theorem MovesTalk.keepsQueue {owner : Owner} (moves : MovesTalk owner) : KeepsQueue owner := fun s => by
  obtain ⟨_, moved⟩ := moves s
  rw [moved]

theorem MovesTariffs.keepsQueue {owner : Owner} (moves : MovesTariffs owner) : KeepsQueue owner := fun s => by
  obtain ⟨_, moved⟩ := moves s
  rw [moved]

namespace KeepsQueue

/-- Checks leave what the work behind them leaves. -/
theorem checked {checks : List (Bool × Code)} {work : Owner} (s : State) (kept : (work s).1.pending = s.pending) :
    (Machine.checked checks work s).1.pending = s.pending := chk_rel (Q := fun t => t.pending = s.pending) rfl kept

theorem openShift (driver : Half) : KeepsQueue (openShiftOwner driver) := fun s => checked s (rederive_pending _)

theorem setPooling (pooling : Byte) : KeepsQueue (setPoolingOwner pooling) := fun s => by
  unfold setPoolingOwner
  split
  · rfl
  · exact checked s (rederive_pending _)

theorem startHire (slot choice : Byte) : KeepsQueue (startHireOwner slot choice) := fun s => by
  obtain ⟨_, reached⟩ := startHireOwner_reach slot choice s
  exact (congrArg State.pending reached :)

theorem removeExtra (slot extra : Byte) : KeepsQueue (removeExtraOwner slot extra) := fun s => by
  obtain ⟨_, reached⟩ := removeExtraOwner_reach slot extra s
  exact (congrArg State.pending reached :)

theorem setConfig (f : ConfigFields) : KeepsQueue (setConfigOwner f) := fun s => by
  refine checked s ?_
  show (s.configured f).pending = s.pending
  rw [(configured_out s f).kept]

theorem setClock (f : ClockFields) : KeepsQueue (setClockOwner f) := fun s => by
  unfold setClockOwner
  split <;> rfl

theorem clockPayload (pl : List Byte) : KeepsQueue (setClockPayload pl) := fun s => by
  unfold setClockPayload
  split
  · rfl
  · exact setClock _ s

theorem ackJournal (seq : Word) : KeepsQueue (ackJournalOwner seq) := fun s => by
  refine checked s ?_
  split
  · rfl
  · exact updateLow_pending _

theorem ackUnfiled (count : Byte) : KeepsQueue (ackUnfiledOwner count) := fun s => checked s rfl

theorem signTest (value : Byte) : KeepsQueue (signTestOwner value) := fun s => by
  unfold signTestOwner
  split
  · exact movesSign_testRun.keepsQueue s
  · split <;> rfl

theorem alarmStandDown : KeepsQueue alarmStandDownOwner := fun s => by
  obtain ⟨_, _, moved⟩ := alarmStandDownOwner_moves s
  rw [moved]

theorem clearPart : KeepsQueue clearPartOwner := fun s => checked s rfl

theorem setIndicators (enable value : Byte) : KeepsQueue (setIndicatorsOwner enable value) := fun s => by
  show (s.withIndicators _).pending = s.pending
  rw [withIndicators_eq]

/-- The work of a request's owner, by its kind. -/
theorem ownerOf (p : PortId) (pl : List Byte) (k : Kind) : KeepsQueue (ownerOf p pl k) :=
  match k with
  | .openShift => openShift _
  | .closeShift => FilesOnly.closeShift.keepsQueue
  | .setPooling => setPooling _
  | .readCounter => (readsOnly_readCounter _ _).keepsQueue
  | .book => (FilesOnly.book _ _ _).keepsQueue
  | .cancelBooking => (FilesOnly.cancelBooking _).keepsQueue
  | .startHire => startHire _ _
  | .suspend => (FilesOnly.suspend _).keepsQueue
  | .resume => (FilesOnly.resume _).keepsQueue
  | .stopHire => (FilesOnly.stopHire _).keepsQueue
  | .addExtra => (FilesOnly.addExtra _ _).keepsQueue
  | .removeExtra => removeExtra _ _
  | .closeUnpaid => (FilesOnly.closeUnpaid _).keepsQueue
  | .readHire => (FilesOnly.readHire _ _).keepsQueue
  | .claim => (FilesOnly.claim _ _).keepsQueue
  | .release => (FilesOnly.release _ _).keepsQueue
  | .beginPayment => (FilesOnly.beginPayment _ _ _ _ _).keepsQueue
  | .paymentResult => (FilesOnly.paymentResult _ _).keepsQueue
  | .reverse => (FilesOnly.reverse _ _ _).keepsQueue
  | .postCash => (FilesOnly.postCash _ _ _).keepsQueue
  | .load => (movesTariffs_load _).keepsQueue
  | .compare => (movesTariffs_compare _).keepsQueue
  | .activate => movesTariffs_activate.keepsQueue
  | .readTariff => (readsOnly_readTariff _ _ _).keepsQueue
  | .setConfig => setConfig _
  | .setClock => clockPayload _
  | .readJournal => (readsOnly_readJournal _).keepsQueue
  | .ackJournal => ackJournal _
  | .readUnfiled => readsOnly_readUnfiled.keepsQueue
  | .ackUnfiled => ackUnfiled _
  | .signOverride => (movesSign_override _).keepsQueue
  | .signTest => signTest _
  | .signClear => movesSign_clear.keepsQueue
  | .setTalkMode => (movesTalk_mode _).keepsQueue
  | .setVolume => (movesTalk_volume _ _).keepsQueue
  | .readIntercom => movesTalk_read.keepsQueue
  | .intercomClear => movesTalk_clear.keepsQueue
  | .postPrompt => (movesTalk_prompt _).keepsQueue
  | .setMonitor => (movesTalk_monitor _).keepsQueue
  | .alarmStandDown => alarmStandDown
  | .clearPart => clearPart
  | .setIndicators => setIndicators _ _
  | .readShift | .latchCounters | .readAlarmLog | .readIndicators | .ackNotices | .setNoticeMask | .setStageMask | .null => fun _ => rfl

theorem checkedOwner (p : PortId) (pl : List Byte) (k : Kind) : KeepsQueue (checkedOwner p pl k) := by
  unfold Machine.checkedOwner
  split
  · exact ownerOf p pl k
  · exact fun _ => rfl

end KeepsQueue

/-! ### Admission and transfers -/

theorem admitRequest_pending {owner : Owner} (kept : KeepsQueue owner) (p : PortId) (k tag : Byte) (offered : Bool) (s : State) :
    (admitRequest p k tag offered owner s).pending = s.pending :=
  admit_rel (R := fun s t => t.pending = s.pending) rfl (fun _ _ same => same) (kept s)

theorem admitNull_pending (p : PortId) (tag : Byte) (s : State) : (admitNull p tag s).pending = s.pending := by
  unfold admitNull
  split
  · rfl
  · rfl
  · rw [takeNull_only]

theorem takeRequest_pending (p : PortId) (kind tag : Byte) (pl : List Byte) (s : State) :
    (takeRequest p kind tag pl s).pending = s.pending := by
  unfold takeRequest
  split
  · exact admitNull_pending _ _ _
  · exact admitRequest_pending (KeepsQueue.checkedOwner _ _ _) _ _ _ _ _
  · exact admitRequest_pending (fun _ => rfl) _ _ _ _ _

theorem takeFrame_pending (p : PortId) (bs : List Byte) (s : State) : (takeFrame p bs s).pending = s.pending := by
  unfold takeFrame
  dsimp only
  split
  · exact takeRequest_pending _ _ _ _ _
  · rfl

theorem receiveByte_pending (p : PortId) (s : State) (b : Byte) : (receiveByte p s b).pending = s.pending := by
  unfold receiveByte
  split
  · rfl
  · split
    · rfl
    · rfl
    · exact takeFrame_pending _ _ _

theorem receiveBytes_pending (p : PortId) (bs : List Byte) : ∀ s : State, (receiveBytes p bs s).pending = s.pending := by
  induction bs with
  | nil => exact fun _ => rfl
  | cons b bs ih => exact fun s => (ih _).trans (receiveByte_pending p s b)

theorem readTransfer_pending (s : State) (p : PortId) (n : Nat) : (s.readTransfer p n).pending = s.pending := by
  have only := readTransfer_onlyPort s p n
  unfold OnlyPort at only
  rw [only]

/-! ### Events -/

theorem wheelPulse_pending (s : State) : s.wheelPulse.pending = s.pending := (congrArg State.pending (wheelPulse_pulsed s) :)

theorem partClearOn_pending (s : State) : s.partClearOn.pending = s.pending := by
  obtain ⟨_, _, _, _, _, _, _, on⟩ := partClearOn_out s
  rw [on]

theorem tick_pending (l : Lines) (s : State) : (s.tick l).pending = s.pending := by
  have before : (preTick l s).pending = s.pending := (congrArg State.pending (pre_e l s) :)
  calc (s.tick l).pending
    _ = (ticked l s).pending := partClearOn_pending (ticked l s)
    _ = (preTick l s).pending := pending_of_beyondFiling (ticked_beyondFiling l s)
    _ = s.pending := before

theorem configWritten_pending (s : State) : s.configWritten.pending = s.pending := by
  unfold State.configWritten
  split <;> rfl

theorem configWriteFailed_pending (s : State) : s.configWriteFailed.pending = s.pending := by
  unfold State.configWriteFailed
  split
  · split <;> rfl
  · rfl

theorem activationDone_pending (s : State) : s.activationDone.pending = s.pending := by
  unfold State.activationDone
  split
  · exact (fileOn_pending _).trans (handOver_pending _ _)
  · rfl

theorem activationFailed_pending (s : State) : s.activationFailed.pending = s.pending := by
  unfold State.activationFailed
  split <;> rfl

theorem onTotalsWrite_pending (s : State) (f : ShiftAccounting → TotalsWrite → ShiftAccounting) :
    (s.onTotalsWrite f).pending = s.pending := by
  unfold State.onTotalsWrite
  split <;> rfl

theorem verifyPass_pending (s : State) : s.verifyPass.pending = s.pending := by
  unfold State.verifyPass
  split
  · exact (fileOn_pending _).trans ((pending_of_beyondFiling (complete_beyondFiling _ _)).trans (updateLow_pending _))
  · rfl

theorem recoveryStart_pending (s : State) : s.recoveryStart.pending = s.pending := by
  unfold State.recoveryStart
  split
  · exact partClearOn_pending s
  · rfl

theorem recoveryEnd_pending (s : State) (failed : List Nat) : (s.recoveryEnd failed).pending = s.pending := by
  unfold State.recoveryEnd
  split
  · exact updateLow_pending _
  · rfl

/-- A verify ends the filing in flight, and Part clear may go on (R121, R122, R192). -/
theorem verified_pending {s t : State} (ended : t.pending = s.pending) :
    (if s.journal.inFlight.isSome then t.partClearOn else s).pending = s.pending := by
  split
  · exact (partClearOn_pending t).trans ended
  · rfl

/-! ### The supply -/

theorem warned_pending (s : State) : s.warned.pending = s.pending := by
  unfold State.warned
  split <;> rfl

theorem freeze_pending (s : State) : s.freeze.pending = s.pending := by
  unfold State.freeze
  split <;> rfl

theorem startUp_pending (s : State) (intact : Bool) (u : StartUp) : (s.startUp intact u).pending = s.pending := by
  cases intact with
  | true =>
    obtain ⟨store, q, y, restores, out, -⟩ := startUp_parts s u
    obtain ⟨t, ends, -, -, -, left, -⟩ := startUp_ends y
    obtain ⟨z, sections, reached, -⟩ := badSections_out (s.atRestoration u store q) (s.tariffs.tariffBad u) (s.tariffs.configBad u)
    obtain rfl : z = y := sections.trans restores.symm
    calc (s.startUp true u).pending
      _ = t.pending := congrArg State.pending (out.trans ends.symm)
      _ = z.pending := (congrArg State.pending left :)
      _ = s.pending := (congrArg State.pending reached :)
  | false =>
    obtain ⟨t, _, started, -, -, left, -⟩ := startUp_lost s u
    rw [← started]
    exact (congrArg State.pending left :)

/-! ### Every command -/

/-- The outcome is a next state with the queue as it was. -/
def EndsNext (s : State) (o : Host.Outcome State Fault Refusal) : Prop := ∃ t, o = .next t ∧ t.pending = s.pending

namespace EndsNext

variable {s : State}

theorem next {t : State} (kept : t.pending = s.pending) : EndsNext s (.next t) := ⟨t, rfl, kept⟩

theorem request {owner : Owner} (p : PortId) (k : Kind) (tag : Byte) (kept : KeepsQueue owner) : EndsNext s (request p k tag owner s) :=
  next (admitRequest_pending kept _ _ _ _ s)

/-- A block whose payload is too long is malformed, and reaches no owner (R175). -/
theorem block {owner : Owner} (p : PortId) (k : Kind) (tag : Byte) (pl : List Byte) (kept : KeepsQueue owner) :
    EndsNext s (requestBlock p k tag pl owner s) := by
  unfold requestBlock
  split
  · exact request p k tag kept
  · refine next ?_
    split <;> rfl

/-- An event that a running part takes. -/
theorem event {f : State → State} (kept : (f s).pending = s.pending) : EndsNext s (.next (whenRunning f s)) := by
  refine next ?_
  unfold whenRunning
  split
  · exact kept
  · rfl

/-- An event that falls or does not (log entry 4). -/
theorem falling {c : Prop} [Decidable c] {f : State → State} (kept : (f s).pending = s.pending) :
    EndsNext s (.next (if c then whenRunning f s else s)) := by
  split
  · exact event kept
  · exact next rfl

theorem tickWith (falls : State → Bool) (l : Lines) : EndsNext s (.next (tickWith falls l s)) := falling (tick_pending l s)

/-- A transfer on a port of a part that is not frozen. -/
theorem transfer {f : State → State} (kept : (f s).pending = s.pending) : EndsNext s (.next (unlessFrozen f s)) := by
  refine next ?_
  unfold unlessFrozen
  split
  · rfl
  · exact kept

end EndsNext

theorem exec_endsNext (i : Instr) (s : State) : EndsNext s (exec i s) :=
  match i with
  | .openShift _ _ _ => .request _ _ _ (KeepsQueue.openShift _)
  | .closeShift _ _ => .request _ _ _ FilesOnly.closeShift.keepsQueue
  | .setPooling _ _ _ => .request _ _ _ (KeepsQueue.setPooling _)
  | .readCounter _ _ _ => .request _ _ _ (readsOnly_readCounter _ _).keepsQueue
  | .book _ _ _ _ _ => .request _ _ _ (FilesOnly.book _ _ _).keepsQueue
  | .cancelBooking _ _ _ => .request _ _ _ (FilesOnly.cancelBooking _).keepsQueue
  | .startHire _ _ _ _ => .request _ _ _ (KeepsQueue.startHire _ _)
  | .suspend _ _ _ => .request _ _ _ (FilesOnly.suspend _).keepsQueue
  | .resume _ _ _ => .request _ _ _ (FilesOnly.resume _).keepsQueue
  | .stopHire _ _ _ => .request _ _ _ (FilesOnly.stopHire _).keepsQueue
  | .addExtra _ _ _ _ => .request _ _ _ (FilesOnly.addExtra _ _).keepsQueue
  | .removeExtra _ _ _ _ => .request _ _ _ (KeepsQueue.removeExtra _ _)
  | .closeUnpaid _ _ _ => .request _ _ _ (FilesOnly.closeUnpaid _).keepsQueue
  | .readHire _ _ _ => .request _ _ _ (FilesOnly.readHire _ _).keepsQueue
  | .claim _ _ _ => .request _ _ _ (FilesOnly.claim _ _).keepsQueue
  | .release _ _ _ => .request _ _ _ (FilesOnly.release _ _).keepsQueue
  | .beginPayment _ _ _ _ _ _ => .request _ _ _ (FilesOnly.beginPayment _ _ _ _ _).keepsQueue
  | .paymentResult _ _ _ => .request _ _ _ (FilesOnly.paymentResult _ _).keepsQueue
  | .reverse _ _ _ _ => .request _ _ _ (FilesOnly.reverse _ _ _).keepsQueue
  | .postCash _ _ _ _ _ => .request _ _ _ (FilesOnly.postCash _ _ _).keepsQueue
  | .load _ _ _ => .block _ _ _ _ (movesTariffs_load _).keepsQueue
  | .compare _ _ _ => .block _ _ _ _ (movesTariffs_compare _).keepsQueue
  | .activate _ _ => .request _ _ _ movesTariffs_activate.keepsQueue
  | .readTariff _ _ _ _ _ => .request _ _ _ (readsOnly_readTariff _ _ _).keepsQueue
  | .setConfig _ _ x => .transfer (admitRequest_pending (KeepsQueue.setConfig _) _ _ _ _ (s.sampleSeal x.sealed))
  | .setClock _ _ _ => .request _ _ _ (KeepsQueue.setClock _)
  | .readJournal _ _ _ => .request _ _ _ (readsOnly_readJournal _).keepsQueue
  | .ackJournal _ _ _ => .request _ _ _ (KeepsQueue.ackJournal _)
  | .readUnfiled _ _ => .request _ _ _ readsOnly_readUnfiled.keepsQueue
  | .ackUnfiled _ _ _ => .request _ _ _ (KeepsQueue.ackUnfiled _)
  | .signOverride _ _ _ => .request _ _ _ (movesSign_override _).keepsQueue
  | .signTestRun _ _ => .request _ _ _ movesSign_testRun.keepsQueue
  | .signClear _ _ => .request _ _ _ movesSign_clear.keepsQueue
  | .setTalkMode _ _ _ => .request _ _ _ (movesTalk_mode _).keepsQueue
  | .setVolume _ _ _ _ => .request _ _ _ (movesTalk_volume _ _).keepsQueue
  | .readIntercom _ _ => .request _ _ _ movesTalk_read.keepsQueue
  | .intercomClear _ _ => .request _ _ _ movesTalk_clear.keepsQueue
  | .postPrompt _ _ _ => .request _ _ _ (movesTalk_prompt _).keepsQueue
  | .setMonitor _ _ _ => .request _ _ _ (movesTalk_monitor _).keepsQueue
  | .alarmStandDown _ _ => .request _ _ _ KeepsQueue.alarmStandDown
  | .clearPart _ _ => .request _ _ _ KeepsQueue.clearPart
  | .setIndicators _ _ _ _ => .request _ _ _ (KeepsQueue.setIndicators _ _)
  | .readShift _ _ | .latchCounters _ _ | .setClockRead _ _ | .signOverrideReport _ _ | .signTestReport _ _ | .readAlarmLog _ _
  | .readIndicators _ _ | .ackNotices _ _ _ | .setNoticeMask _ _ _ | .setStageMask _ _ _ => .request _ _ _ fun _ => rfl
  | .null _ _ => .next (admitNull_pending _ _ _)
  | .writeStart p x => .transfer (receiveBytes_pending _ _ ((s.sampleSeal x.sealed).setReceive p (some [])))
  | .writeContinue _ x => .transfer (receiveBytes_pending _ _ (s.sampleSeal x.sealed))
  | .readFrame _ _ => .transfer (readTransfer_pending _ _ _)
  | .repeatFrame _ _ => .transfer rfl
  | .wheelPulse => .event (wheelPulse_pending s)
  | .totalMetres100m => .falling (wheelPulse_pending s)
  | .tick l => .event (tick_pending l s)
  | .fareTick _ | .ambientChange _ | .flashPhase _ | .signTestStep _ | .bookingExpired _ _ | .paymentExpired _ _ _ | .claimExpired _ _
  | .partClearComplete _ | .alarmPress _ => .tickWith _ _
  | .configWriteComplete => .event (configWritten_pending s)
  | .configWriteFail => .event (configWriteFailed_pending s)
  | .activationDone => .event (activationDone_pending s)
  | .activationFailed => .event (activationFailed_pending s)
  | .totalizerWriteComplete | .totalizerWriteFail => .event (onTotalsWrite_pending s _)
  | .journalVerifyPass => .event (verified_pending (verifyPass_pending s))
  | .journalVerifyFail => .event (verified_pending (pending_of_beyondFiling (verifyFail_beyondFiling s)))
  | .journalRecoveryStart => .event (recoveryStart_pending s)
  | .journalRecoveryEnd failed => .event (recoveryEnd_pending s failed)
  | .frontCodecFrame _ | .rearCodecFrame _ => .event rfl
  | .promptEnd _ | .chimeEnd _ => .falling rfl
  | .rtcSecond => .next rfl
  | .powerFailWarning => .next (warned_pending s)
  | .freeze => .next (freeze_pending s)
  | .freezeExit u => .next (by
      split
      · exact startUp_pending s true u
      · rfl)
  | .powerOn u => .next (startUp_pending s _ u)

/-- Settles O2: every command by its owner's work or its event's, none of which reaches the queue. -/
theorem everyCommandEndsInANextState : Obligations.EveryCommandEndsInANextState := exec_endsNext

end Sys2Proof.Machine
end
